-- ==== Sys2Proof/Word.lean ====
section
/-! DEFINITION. The widths of the values the spec treats as bits (00_scope.md R11, R12). -/

namespace Sys2Proof

/-- A host-visible register or a command word: 32 bits (10_state.md R38). -/
abbrev Word := BitVec 32

/-- A register number: 3 bits (20_memory.md R50). -/
abbrev RegNum := BitVec 3

/-- The frame shift register's contents: 40 bits, the first received bit in bit 39
once all are in (10_state.md R25, 30_encoding.md R78). -/
abbrev Frame := BitVec 40

/-- One byte of a frame (30_encoding.md R78). -/
abbrev Byte := BitVec 8

end Sys2Proof
end

