-- ==== Sys2Proof/Syntax.lean ====
section
/-! DEFINITION. The commands (30_encoding.md R71), the parts of a command word (R70), the
reasons a word is no command (R73), and what the environment supplies in one tick
(00_scope.md R9, 10_state.md R37). -/

namespace Sys2Proof

/-- The five commands, one constructor per row of spec/opcode_table.json. None has an operand. -/
inductive Instr where
  /-- `NOP` (40_decoder_commands.md R101) -/
  | nop
  /-- `START_PULSE` (40_decoder_commands.md R102) -/
  | startPulse
  /-- `READ_FRAME` (40_decoder_commands.md R103) -/
  | readFrame
  /-- `ACQUIRE` (40_decoder_commands.md R104) -/
  | acquire
  /-- `BTN_ACK` (42_button_controller.md R165) -/
  | btnAck
  deriving DecidableEq, Repr, Inhabited

/-- The two fields of the one command format `CMD` (30_encoding.md R70). -/
structure CmdFields where
  /-- `ZERO`, bits 31:3 -/
  zero : BitVec 29
  /-- `OP`, bits 2:0 -/
  op : BitVec 3
  deriving DecidableEq, Repr

/-- Why a 32-bit word is no command (30_encoding.md R73). Such a word is dropped. -/
inductive Reject where
  /-- Some bit of `ZERO` (bits 31:3) is set. -/
  | zeroFieldNotZero (zero : BitVec 29)
  /-- `OP` is 5, 6 or 7. -/
  | reservedOp (op : BitVec 3)
  deriving DecidableEq, Repr

/-- The host's access of one tick (20_memory.md R51). -/
inductive HostAccess where
  /-- `None` -/
  | none
  /-- `Read r` -/
  | read (r : RegNum)
  /-- `Write r v` -/
  | write (r : RegNum) (v : Word)
  deriving DecidableEq, Repr, Inhabited

/-- The inputs of one tick (00_scope.md R9, 10_state.md R37). A level is `true` for 1. -/
structure Inputs where
  /-- `rst`, active at 1 -/
  rst : Bool
  /-- `line_in`, the level of the sensor line -/
  lineIn : Bool
  /-- `btn_in`, the level of the button line -/
  btnIn : Bool
  /-- `host`, the host's access -/
  host : HostAccess
  deriving DecidableEq, Repr, Inhabited

end Sys2Proof
end

