-- ==== Sys2Proof/Config.lean ====
section
/-! DEFINITION. What fixes an instance (00_scope.md R5) and the free values: the open parameter
`VARIANT` and the environment's inputs. An `opaque` constant has no body a proof could see. -/

namespace Sys2Proof

/-- The payload interpretation of an instance (00_scope.md R2, R5). -/
inductive Variant where
  /-- `Simple`, code 0 -/
  | simple
  /-- `Extended`, code 1 -/
  | extended
  deriving DecidableEq, Repr, Inhabited

/-- The parameters of 00_scope.md R5, durations in ticks, with the defaults R5 gives.
`VARIANT` has no default: it must be given. -/
structure Params where
  /-- `START_LOW_TICKS` -/
  startLowTicks : Nat := 18000
  /-- `START_HIGH_TICKS` -/
  startHighTicks : Nat := 30
  /-- `TIMEOUT_TICKS` -/
  timeoutTicks : Nat := 1000
  /-- `BIT_THRESHOLD_TICKS` -/
  bitThresholdTicks : Nat := 50
  /-- `DEBOUNCE_TICKS` -/
  debounceTicks : Nat := 300000
  /-- `VARIANT` -/
  variant : Variant
  deriving DecidableEq, Repr

/-- The variant of the instance that `State.reset` describes: the spec leaves it open
(92_eei_decisions.md D18), so nothing can be proved of its value. DESIGN CHOICE, safe (log 3). -/
opaque Config.variant : Variant

/-- The inputs of every tick for which none are placed in the state: the oracles `HOST`, `SENSOR`
and `BUTTON` of 00_scope.md R8, and `rst`. Nothing constrains them. DESIGN CHOICE, safe (log 1). -/
opaque Config.freeInputs : Nat → Inputs

/-- The parameters in `State.reset`: the defaults of 00_scope.md R5 and the open variant. -/
def Config.params : Params := { variant := Config.variant }

end Sys2Proof
end

