-- ==== Sys2Proof/WellFormed.lean ====
section
/-! DEFINITION. The checks: which command fields are a command (30_encoding.md R70, R71, R73) and
which parameters an instance may have (00_scope.md R6). -/

namespace Sys2Proof

/-- A command has no operands (30_encoding.md R70), so every term of `Instr` is well-formed. -/
def Instr.wf : Instr → Bool
  | .nop => true
  | .startPulse => true
  | .readFrame => true
  | .acquire => true
  | .btnAck => true

/-- The fields of a command word are those of a command (30_encoding.md R72, R73). -/
def CmdFields.wf (f : CmdFields) : Bool :=
  decide (f.zero = 0) && decide (f.op.toNat ≤ 4)

/-- The parameter constraints of 00_scope.md R6. -/
abbrev Params.Legal (p : Params) : Prop :=
  (1 ≤ p.startLowTicks ∧ p.startLowTicks ≤ 32767) ∧
  (1 ≤ p.startHighTicks ∧ p.startHighTicks ≤ 32767) ∧
  (1 ≤ p.timeoutTicks ∧ p.timeoutTicks ≤ 32767) ∧
  (1 ≤ p.bitThresholdTicks ∧ p.bitThresholdTicks < p.timeoutTicks) ∧
  (1 ≤ p.debounceTicks ∧ p.debounceTicks ≤ 524287)

end Sys2Proof
end

