-- ==== Sys2Proof/Decode.lean ====
section
/-! DEFINITION. The command decoder and encoder (30_encoding.md R70 to R73). -/

namespace Sys2Proof

/-- The fields of a 32-bit word: `OP` is bits 2:0, `ZERO` bits 31:3 (30_encoding.md R70). -/
def cmdFields (v : Word) : CmdFields :=
  { zero := v.extractLsb' 3 29, op := v.extractLsb' 0 3 }

/-- The operation codes (30_encoding.md R71); 5, 6 and 7 are reserved (R73). -/
def decodeOp (op : BitVec 3) : Except Reject Instr :=
  match op with
  | 0#3 => .ok .nop
  | 1#3 => .ok .startPulse
  | 2#3 => .ok .readFrame
  | 3#3 => .ok .acquire
  | 4#3 => .ok .btnAck
  | _ => .error (.reservedOp op)

/-- The command of a 32-bit word, or why it is none (30_encoding.md R72, R73). Total. -/
def decodeWord (v : Word) : Except Reject Instr :=
  if (cmdFields v).zero = 0 then decodeOp (cmdFields v).op
  else .error (.zeroFieldNotZero (cmdFields v).zero)

/-- `Decode(h)` (30_encoding.md R72): only a write to register 0 can carry a command. -/
def decodeAccess (h : HostAccess) : Option Instr :=
  match h with
  | .none => none
  | .read _ => none
  | .write r v => if r = 0 then (decodeWord v).toOption else none

/-- The operation code of a command (30_encoding.md R71). -/
def opcode (i : Instr) : BitVec 3 :=
  match i with
  | .nop => 0#3
  | .startPulse => 1#3
  | .readFrame => 2#3
  | .acquire => 3#3
  | .btnAck => 4#3

/-- The word of a command: `OP` in bits 2:0 and zeros above (30_encoding.md R70). -/
def encode (i : Instr) : Word := 0#29 ++ opcode i

/-- The low `nbits` bits of `w`, the bits above them 0, as a command word; `none` if they do not
fit the one 32-bit format. -/
def tableWord (nbits w : Nat) : Option Word :=
  if w % 2 ^ nbits < 2 ^ 32 then some (BitVec.ofNat 32 (w % 2 ^ nbits)) else none

/-- The instruction the decoder reads from the bits `w` of a row of spec/opcode_table.json. A command
is one 32-bit word moved whole (20_memory.md R55), so bit 0 of the table is bit 0 of the word. -/
def decodeTableWord (nbits w : Nat) : Option Instr :=
  match tableWord nbits w with
  | some v => (decodeWord v).toOption
  | none => none

end Sys2Proof
end

