-- ==== Sys2Proof/Machine/State.lean ====
section
/-! DEFINITION. The state (10_state.md R20 to R35), its reset value (R48), and the reasons a step
can stop. All plain data. -/

namespace Sys2Proof.Machine

/-- `PHASE`, the sequencer's position (10_state.md R21). -/
inductive Phase where
  | idle | startLow | startHigh | ackW0 | ackW1 | ackW2 | bitLow | bitHigh
  deriving DecidableEq, Repr

/-- `DEB_STATE` (10_state.md R31). -/
inductive DebState where
  | armed | suppressed
  deriving DecidableEq, Repr

/-- The four decode errors (60_exceptions.md R180). -/
inductive DecodeError where
  | noResponse | lowPulseTimeout | highPulseTimeout | checksumMismatch
  deriving DecidableEq, Repr

/-- The decoder's state elements (10_state.md R20 to R29). -/
structure Dec where
  /-- `PHASE` (R21) -/
  phase : Phase
  /-- `CHAIN`: an `ACQUIRE` is executing (R22) -/
  chain : Bool
  /-- `CNT`, the tick counter of the phase (R24) -/
  cnt : BitVec 15
  /-- `BITCNT`, the frame bits shifted in so far (R23) -/
  bitcnt : BitVec 6
  /-- `SHREG`, the frame shift register (R25) -/
  shreg : Frame
  /-- `VALID`: `SHREG` holds a checked frame (R26) -/
  valid : Bool
  /-- `DONE`, sticky: the last decoder command has completed (R27) -/
  done : Bool
  /-- `ERR`, the error code of the last completed decoder command (R28) -/
  err : BitVec 3
  /-- `DONE_EVT`, the one-tick completion pulse (R29) -/
  doneEvt : Bool
  deriving DecidableEq, Repr

/-- The button controller's state elements (10_state.md R20, R31 to R35). -/
structure Deb where
  /-- `DEB_STATE` (R31) -/
  state : DebState
  /-- `DEB_CNT`, the ticks left until the re-arm timer fires (R33) -/
  cnt : BitVec 19
  /-- `BTN_PREV`, the button level of the previous tick (R32) -/
  btnPrev : Bool
  /-- `PENDING`, sticky: an unacknowledged activation (R34) -/
  pending : Bool
  /-- `ACT_EVT`, the one-tick activation pulse (R35) -/
  actEvt : Bool
  deriving DecidableEq, Repr

/-- The machine: the spec's state is `dec` and `deb` (10_state.md R20). `cfg`, `env` and `now` are
the model's own: the arguments that 00_scope.md R9 gives the step function, held as data
(DESIGN CHOICE, safe: log 1, log 2, log 6). -/
structure State where
  /-- the decoder -/
  dec : Dec
  /-- the button controller -/
  deb : Deb
  /-- the parameters of the instance; no step changes them -/
  cfg : Params
  /-- the inputs of the ticks to come, the next tick's first -/
  env : List Inputs
  /-- how many ticks have passed; the index of the free inputs once `env` is used up -/
  now : Nat
  deriving DecidableEq, Repr

/-- A step of this machine never stops with a fault: every rule of the spec assigns a next state,
and the four decode errors are results that a next state holds (00_scope.md R10,
60_exceptions.md R184). So there is no fault to name. Safe (log 16). -/
inductive Fault where
  deriving DecidableEq, Repr

/-- Why a step has no meaning. -/
inductive Refusal where
  /-- Raised by an arm of `exec` whose instruction has no meaning in the model. No arm raises it
  here. Safe: the model stops where the hardware goes on. -/
  | notModelled (mnemonic : String)
  /-- Raised by `step` for an instance whose parameters break 00_scope.md R6: "An instance whose
  parameters break a constraint has no meaning in this spec; a model refuses to build it." Safe:
  no such instance exists (log 2). -/
  | illegalParameters
  deriving DecidableEq, Repr

/-- The decoder after reset (10_state.md R48). -/
def Dec.reset : Dec :=
  { phase := .idle, chain := false, cnt := 0, bitcnt := 0, shreg := 0,
    valid := false, done := false, err := 0, doneEvt := false }

/-- The button controller after reset (10_state.md R48). -/
def Deb.reset : Deb :=
  { state := .armed, cnt := 0, btnPrev := false, pending := false, actEvt := false }

/-- An instance with the parameters `p`, right after reset, no input placed. -/
def State.resetWith (p : Params) : State :=
  { dec := Dec.reset, deb := Deb.reset, cfg := p, env := [], now := 0 }

/-- The machine right after reset (10_state.md R48, 70_reset_and_hazards.md R211), with the default
parameters and the open variant. -/
def State.reset : State := State.resetWith Config.params

end Sys2Proof.Machine
end

