-- ==== Sys2Proof/Machine/Operands.lean ====
section
/-! DEFINITION. The operands the block assembles: a pulse length to a bit, bits to a frame, a frame
to bytes, bytes to humidity and temperature (30_encoding.md R77 to R81, 41_payload_interpretation.md).
The commands themselves have no operands (30_encoding.md R70). -/

namespace Sys2Proof.Machine

/-- `SymbolBit(n)` (30_encoding.md R77): a high pulse longer than the threshold is a 1. -/
def symbolBit (p : Params) (n : BitVec 15) : Bool := decide (p.bitThresholdTicks < n.toNat)

/-- The frame with one more bit: shift left by one, the new bit in at bit 0
(40_decoder_commands.md R115). -/
def shiftIn (f : Frame) (b : Bool) : Frame := f.extractLsb' 0 39 ++ BitVec.ofBool b

/-- `b0`, the first byte received (30_encoding.md R78). -/
def byte0 (f : Frame) : Byte := f.extractLsb' 32 8

/-- `b1` (30_encoding.md R78). -/
def byte1 (f : Frame) : Byte := f.extractLsb' 24 8

/-- `b2` (30_encoding.md R78). -/
def byte2 (f : Frame) : Byte := f.extractLsb' 16 8

/-- `b3` (30_encoding.md R78). -/
def byte3 (f : Frame) : Byte := f.extractLsb' 8 8

/-- `b4`, the checksum byte (30_encoding.md R78). -/
def byte4 (f : Frame) : Byte := f.extractLsb' 0 8

/-- The four data bytes as one word, `SHREG[39:8]`, `b0` uppermost (10_state.md R41). -/
def dataWord (f : Frame) : Word := f.extractLsb' 8 32

/-- `zext_32(Hum(VARIANT, frame))` (41_payload_interpretation.md R142, R144): whole percent in `b0`,
or tenths of a percent in the 16 bits `b0`, `b1`, `b0` the high byte. -/
def hum (v : Variant) (f : Frame) : Word :=
  match v with
  | .simple => (byte0 f).setWidth 32
  | .extended => (byte0 f ++ byte1 f).setWidth 32

/-- Sign-and-magnitude to two's complement in 16 bits (41_payload_interpretation.md R145): bit 15
is the sign, bits 14:0 the magnitude. -/
def signMagnitude (raw : BitVec 16) : BitVec 16 :=
  let mag : BitVec 16 := (raw.extractLsb' 0 15).setWidth 16
  if raw.getLsbD 15 then 0 - mag else mag

/-- `Temp32(VARIANT, frame)` (41_payload_interpretation.md R143, R145): whole degrees in `b2`,
unsigned, or tenths of a degree in the sign-and-magnitude 16 bits `b2`, `b3`. -/
def temp32 (v : Variant) (f : Frame) : Word :=
  match v with
  | .simple => (byte2 f).setWidth 32
  | .extended => (signMagnitude (byte2 f ++ byte3 f)).signExtend 32

end Sys2Proof.Machine
end

