-- ==== Sys2Proof/Machine/Flags.lean ====
section
/-! DEFINITION. Every flag the spec gives: the checksum test behind `VALID`, the error codes, `BUSY`,
and the two flag registers `STATUS` and `BTN`. -/

namespace Sys2Proof.Machine

/-- `Checksum(b0, b1, b2, b3)`: the exact sum, truncated to 8 bits (41_payload_interpretation.md R140). -/
def checksum (b0 b1 b2 b3 : Byte) : Byte :=
  BitVec.ofNat 8 (b0.toNat + b1.toNat + b2.toNat + b3.toNat)

/-- The frame's checksum byte is the checksum of its data bytes (30_encoding.md R79). -/
def frameOk (f : Frame) : Bool :=
  checksum (byte0 f) (byte1 f) (byte2 f) (byte3 f) == byte4 f

/-- The code of a decode error in `ERR` (30_encoding.md R82). -/
def errCode (e : DecodeError) : BitVec 3 :=
  match e with
  | .noResponse => 1
  | .lowPulseTimeout => 2
  | .highPulseTimeout => 3
  | .checksumMismatch => 4

/-- The numeric code of a phase (10_state.md R21); internal, no rule reads it. -/
def phaseCode (p : Phase) : BitVec 3 :=
  match p with
  | .idle => 0
  | .startLow => 1
  | .startHigh => 2
  | .ackW0 => 3
  | .ackW1 => 4
  | .ackW2 => 5
  | .bitLow => 6
  | .bitHigh => 7

/-- `BUSY(S)` (10_state.md R30). -/
def busy (d : Dec) : Bool := decide (d.phase ≠ .idle)

/-- `VARIANT` as the bit `STATUS[7]` (10_state.md R39). -/
def variantBit (v : Variant) : Bool :=
  match v with
  | .simple => false
  | .extended => true

/-- `DEB_STATE` as the bit `BTN[0]` (10_state.md R31, R45). -/
def suppressedBit (b : DebState) : Bool :=
  match b with
  | .armed => false
  | .suppressed => true

/-- `STATUS` (10_state.md R39, 20_memory.md R52): `VARIANT` in bit 7, `ERR` in 6:4, 0 in bit 3,
`VALID` in bit 2, `DONE` in bit 1, `BUSY` in bit 0, zeros above. -/
def statusWord (v : Variant) (d : Dec) : Word :=
  0#24 ++ BitVec.ofBool (variantBit v) ++ d.err ++ 0#1 ++ BitVec.ofBool d.valid ++
    BitVec.ofBool d.done ++ BitVec.ofBool (busy d)

/-- `BTN` (10_state.md R45, 20_memory.md R52): `PENDING` in bit 1, `SUPPRESSED` in bit 0. -/
def btnWord (b : Deb) : Word :=
  0#30 ++ BitVec.ofBool b.pending ++ BitVec.ofBool (suppressedBit b.state)

end Sys2Proof.Machine
end

