-- ==== Sys2Proof/Machine/Ops.lean ====
section
/-! DEFINITION. The named operations: the inputs of a tick, the end of a tick, reading a register,
the output ports, accepting a decoder command, completing one, and raising a decode error (the
block's exception, one shared operation; there is no return from it, 60_exceptions.md R191). -/

namespace Sys2Proof.Machine

/-- The inputs of the tick that is `j` ticks ahead: the one placed in `env`, else the free one
(00_scope.md R8, R9; log 1). -/
def inputsAt (s : State) (j : Nat) : Inputs :=
  (s.env.drop j).headD (Config.freeInputs (s.now + j))

/-- The inputs sampled in the current tick (00_scope.md R10, step 1). -/
def inputs (s : State) : Inputs := inputsAt s 0

/-- The end of a tick: all next values are stored together (00_scope.md R10, step 6), and this
tick's inputs are used up. -/
def endTick (s : State) (d : Dec) (b : Deb) : State :=
  { s with dec := d, deb := b, env := s.env.tail, now := s.now + 1 }

/-- `s` with `i` as the inputs of the current tick; the inputs of later ticks stay. -/
def setInputs (s : State) (i : Inputs) : State :=
  { s with env := i :: s.env.tail }

/-- `RegValue(S, r)` (20_memory.md R52, 10_state.md R38 to R46): what a read of register `r` returns.
The result registers read 0 unless `VALID = 1`. -/
def regValue (s : State) (r : RegNum) : Word :=
  match r with
  | 1#3 => statusWord s.cfg.variant s.dec
  | 2#3 => if s.dec.valid then dataWord s.dec.shreg else 0
  | 3#3 => if s.dec.valid then (byte4 s.dec.shreg).setWidth 32 else 0
  | 4#3 => if s.dec.valid then hum s.cfg.variant s.dec.shreg else 0
  | 5#3 => if s.dec.valid then temp32 s.cfg.variant s.dec.shreg else 0
  | 6#3 => btnWord s.deb
  | _ => 0

/-- The register number of `CMD` (10_state.md R38). -/
def regCmd : RegNum := 0#3

/-- The register number of `STATUS` (10_state.md R38). -/
def regStatus : RegNum := 1#3

/-- The register number of `DATA` (10_state.md R38). -/
def regData : RegNum := 2#3

/-- The register number of `CHK` (10_state.md R38). -/
def regChk : RegNum := 3#3

/-- The register number of `HUM` (10_state.md R38). -/
def regHum : RegNum := 4#3

/-- The register number of `TEMP` (10_state.md R38). -/
def regTemp : RegNum := 5#3

/-- The register number of `BTN` (10_state.md R38). -/
def regBtn : RegNum := 6#3

/-- `line_oe`: the block drives the sensor line (10_state.md R40). -/
def lineOe (s : State) : Bool :=
  decide (s.dec.phase = .startLow) || decide (s.dec.phase = .startHigh)

/-- `line_out`: the level driven (10_state.md R40). -/
def lineOut (s : State) : Bool := decide (s.dec.phase = .startHigh)

/-- `done_evt` (10_state.md R40). -/
def doneEvtOut (s : State) : Bool := s.dec.doneEvt

/-- `done_lvl` (10_state.md R40). -/
def doneLvl (s : State) : Bool := s.dec.done

/-- `act_evt` (10_state.md R40). -/
def actEvtOut (s : State) : Bool := s.deb.actEvt

/-- `act_lvl` (10_state.md R40). -/
def actLvl (s : State) : Bool := s.deb.pending

/-- `rdata`: what the host's read of this tick returns, 0 in a tick without one (10_state.md R40,
00_scope.md R10 step 2: with or without `rst`). -/
def rdata (s : State) : Word :=
  match (inputs s).host with
  | .none => 0
  | .read r => regValue s r
  | .write _ _ => 0

/-- Acceptance of a decoder command (40_decoder_commands.md R100): the previous frame and error are
forgotten, and the sequencer goes to `target`. -/
def accept (target : Phase) (chain : Bool) (d : Dec) : Dec :=
  { d with
    phase := target, chain := chain, cnt := 0, bitcnt := 0, shreg := 0,
    valid := false, done := false, err := 0, doneEvt := false }

/-- The error completion, `raise DecodeError(e)` (60_exceptions.md R184). -/
def raiseError (e : DecodeError) (d : Dec) : Dec :=
  { d with
    phase := .idle, chain := false, cnt := 0, bitcnt := 0, shreg := 0,
    valid := false, done := true, err := errCode e, doneEvt := true }

/-- The completion of `START_PULSE` at the end of `START_HIGH` (40_decoder_commands.md R107). -/
def completePulse (d : Dec) : Dec :=
  { d with phase := .idle, cnt := 0, done := true, doneEvt := true }

/-- `Complete(frame)` (40_decoder_commands.md R116): the frame stands if its checksum is right, and
is discarded if not. -/
def completeFrame (f : Frame) (d : Dec) : Dec :=
  if frameOk f then
    { d with
      phase := .idle, chain := false, cnt := 0, bitcnt := 0, shreg := f,
      valid := true, done := true, err := 0, doneEvt := true }
  else raiseError .checksumMismatch d

end Sys2Proof.Machine
end

