-- ==== Sys2Proof/Machine/Button.lean ====
section
/-! DEFINITION. One tick of the button controller `DEB` (42_button_controller.md R160 to R169). -/

namespace Sys2Proof.Machine

/-- The falling edge (42_button_controller.md R160): high in the previous tick, low in this one. -/
def fall (b : Deb) (btn : Bool) : Bool := b.btnPrev && !btn

/-- `Activate()` (42_button_controller.md R164). -/
def activate (p : Params) (b : Deb) : Deb :=
  { b with
    state := .suppressed, cnt := BitVec.ofNat 19 p.debounceTicks, actEvt := true, pending := true }

/-- `Expire()`: the re-arm timer fires and emits nothing (42_button_controller.md R163). -/
def expire (b : Deb) : Deb := { b with state := .armed, cnt := 0 }

/-- What every tick assigns before the state's own work (42_button_controller.md R160, R169): the
edge detector's memory, no event, and `PENDING` cleared by an acknowledge `ack` (R165). An
activation of the same tick overrides the last (R166). -/
def debDefaults (btn ack : Bool) (b : Deb) : Deb :=
  { b with btnPrev := btn, actEvt := false, pending := b.pending && !ack }

/-- The step in `Armed` (42_button_controller.md R161); `edge` is `fall`. -/
def armedTick (p : Params) (edge : Bool) (b : Deb) : Deb :=
  if edge then activate p b else b

/-- The step in `Suppressed` (42_button_controller.md R162): edges are ignored, the timer runs. -/
def suppressedTick (b : Deb) : Deb :=
  if b.cnt.toNat ≤ 1 then expire b else { b with cnt := b.cnt - 1 }

/-- `DebStep` (42_button_controller.md R169); `ack` says that the command of the tick is `BTN_ACK`. -/
def debStep (p : Params) (btn ack : Bool) (b : Deb) : Deb :=
  match b.state with
  | .armed => armedTick p (fall b btn) (debDefaults btn ack b)
  | .suppressed => suppressedTick (debDefaults btn ack b)

end Sys2Proof.Machine
end

