-- ==== Sys2Proof/Machine/Sequencer.lean ====
section
/-! DEFINITION. One tick of the decoder `DEC` (40_decoder_commands.md R105 to R122): the wait and one
definition per phase. Each takes the parameters, the sampled `line_in` and the decoder at the start
of the tick with `DONE_EVT` already assigned its default 0 (R119). -/

namespace Sys2Proof.Machine

/-- The wait (40_decoder_commands.md R110): `lv` is the level waited out, `e` the error of the
timeout, `k` the continuation, handed the pulse's length. The level is tested before the timeout. -/
def wait (p : Params) (line lv : Bool) (e : DecodeError) (k : BitVec 15 → Dec) (d : Dec) : Dec :=
  if line ≠ lv then k d.cnt
  else if p.timeoutTicks ≤ d.cnt.toNat then raiseError e d
  else { d with cnt := d.cnt + 1 }

/-- Phase `START_LOW` (40_decoder_commands.md R106). -/
def startLowTick (p : Params) (d : Dec) : Dec :=
  if p.startLowTicks - 1 ≤ d.cnt.toNat then { d with phase := .startHigh, cnt := 0 }
  else { d with cnt := d.cnt + 1 }

/-- Phase `START_HIGH` (40_decoder_commands.md R107). -/
def startHighTick (p : Params) (d : Dec) : Dec :=
  if p.startHighTicks - 1 ≤ d.cnt.toNat then
    if d.chain then { d with phase := .ackW0, cnt := 0 } else completePulse d
  else { d with cnt := d.cnt + 1 }

/-- Phase `ACK_W0`: the released line is high until the sensor pulls it low
(40_decoder_commands.md R111). -/
def ackW0Tick (p : Params) (line : Bool) (d : Dec) : Dec :=
  wait p line true .noResponse (fun _ => { d with phase := .ackW1, cnt := 1 }) d

/-- Phase `ACK_W1`: the acknowledgment's low pulse (40_decoder_commands.md R112). -/
def ackW1Tick (p : Params) (line : Bool) (d : Dec) : Dec :=
  wait p line false .noResponse (fun _ => { d with phase := .ackW2, cnt := 1 }) d

/-- Phase `ACK_W2`: the acknowledgment's high pulse (40_decoder_commands.md R113). -/
def ackW2Tick (p : Params) (line : Bool) (d : Dec) : Dec :=
  wait p line true .noResponse (fun _ => { d with phase := .bitLow, cnt := 1 }) d

/-- Phase `BIT_LOW`: the separator of the current bit (40_decoder_commands.md R114). -/
def bitLowTick (p : Params) (line : Bool) (d : Dec) : Dec :=
  wait p line false .lowPulseTimeout (fun _ => { d with phase := .bitHigh, cnt := 1 }) d

/-- What the end of a bit's high pulse of length `n` does (40_decoder_commands.md R115): shift the
bit in, then complete the frame after bit 39 or go on to the next bit. -/
def bitReceived (p : Params) (n : BitVec 15) (d : Dec) : Dec :=
  if d.bitcnt = 39 then completeFrame (shiftIn d.shreg (symbolBit p n)) d
  else
    { d with
      shreg := shiftIn d.shreg (symbolBit p n), bitcnt := d.bitcnt + 1,
      phase := .bitLow, cnt := 1 }

/-- Phase `BIT_HIGH`: the high pulse that carries the bit (40_decoder_commands.md R115). -/
def bitHighTick (p : Params) (line : Bool) (d : Dec) : Dec :=
  wait p line true .highPulseTimeout (fun n => bitReceived p n d) d

/-- The phase's own work in a tick with no accepted command; `IDLE` does none
(40_decoder_commands.md R105). -/
def phaseTick (p : Params) (line : Bool) (d : Dec) : Dec :=
  match d.phase with
  | .idle => d
  | .startLow => startLowTick p d
  | .startHigh => startHighTick p d
  | .ackW0 => ackW0Tick p line d
  | .ackW1 => ackW1Tick p line d
  | .ackW2 => ackW2Tick p line d
  | .bitLow => bitLowTick p line d
  | .bitHigh => bitHighTick p line d

/-- `DecStep` in a tick without a decoder command (40_decoder_commands.md R122): `DONE_EVT` is 0
unless a completion sets it (R119). -/
def decStep (p : Params) (line : Bool) (d : Dec) : Dec :=
  phaseTick p line { d with doneEvt := false }

/-- `DecStep` in a tick with a decoder command that goes to `target` (40_decoder_commands.md R100):
accepted in `IDLE`, dropped in every other phase. -/
def decCommandStep (p : Params) (line : Bool) (target : Phase) (chain : Bool) (d : Dec) : Dec :=
  if d.phase = .idle then accept target chain d else decStep p line d

end Sys2Proof.Machine
end

