-- ==== Sys2Proof/Machine/Tick.lean ====
section
/-! DEFINITION. One whole tick (00_scope.md R10) without a command, with `rst`, and the command that
the host's access of the tick carries (the block's counterpart of a fetch, 20_memory.md R60). -/

namespace Sys2Proof.Machine

/-- The command of the current tick, decoded from the host's access (30_encoding.md R72); illegal
words and every other access carry none (R73, 20_memory.md R54). -/
def fetchCommand (s : State) : Option Instr := decodeAccess (inputs s).host

/-- `DEC` in a tick without a decoder command. -/
def decQuiet (s : State) : Dec := decStep s.cfg (inputs s).lineIn s.dec

/-- `DEC` in a tick with the decoder command that goes to `target`. -/
def decCommand (s : State) (target : Phase) (chain : Bool) : Dec :=
  decCommandStep s.cfg (inputs s).lineIn target chain s.dec

/-- `DEB` in a tick without `BTN_ACK`. -/
def debQuiet (s : State) : Deb := debStep s.cfg (inputs s).btnIn false s.deb

/-- `DEB` in a tick with `BTN_ACK`. -/
def debAck (s : State) : Deb := debStep s.cfg (inputs s).btnIn true s.deb

/-- A tick with `rst = 0` and no command: both sub-blocks step (00_scope.md R10, steps 4 to 6). -/
def quietTick (s : State) : State := endTick s (decQuiet s) (debQuiet s)

/-- A tick with `rst = 1` (70_reset_and_hazards.md R210): every state element takes its reset value. -/
def resetTick (s : State) : State := endTick s Dec.reset Deb.reset

/-- `s` with `Write 0 v` as the host's access of the current tick and `rst = 0`, so that the command
of `v` is decoded in it (00_scope.md R10, step 3). The other inputs of the tick stay. -/
def placeCommandWord (s : State) (v : Word) : State :=
  setInputs s { inputs s with rst := false, host := .write regCmd v }

end Sys2Proof.Machine
end

