-- ==== Sys2Proof/Machine/Commands.lean ====
section
/-! DEFINITION. The meanings of the five commands: each is one whole tick in which that command is
the one decoded (00_scope.md R10, steps 4 to 6; log 5). -/

namespace Sys2Proof.Machine

/-- `NOP` (40_decoder_commands.md R101): the tick is what it is without a command. -/
def execNop (s : State) : Host.Outcome State Fault Refusal :=
  .next (endTick s (decQuiet s) (debQuiet s))

/-- `START_PULSE` (40_decoder_commands.md R102). -/
def execStartPulse (s : State) : Host.Outcome State Fault Refusal :=
  .next (endTick s (decCommand s .startLow false) (debQuiet s))

/-- `READ_FRAME` (40_decoder_commands.md R103). -/
def execReadFrame (s : State) : Host.Outcome State Fault Refusal :=
  .next (endTick s (decCommand s .ackW0 false) (debQuiet s))

/-- `ACQUIRE` (40_decoder_commands.md R104). -/
def execAcquire (s : State) : Host.Outcome State Fault Refusal :=
  .next (endTick s (decCommand s .startLow true) (debQuiet s))

/-- `BTN_ACK` (42_button_controller.md R165, R166). -/
def execBtnAck (s : State) : Host.Outcome State Fault Refusal :=
  .next (endTick s (decQuiet s) (debAck s))

end Sys2Proof.Machine
end

