-- ==== Sys2Proof/Machine/Dispatch.lean ====
section
/-! DEFINITION. The dispatch: one arm per command, one direct call of its meaning. -/

namespace Sys2Proof.Machine

def exec (i : Instr) (s : State) : Host.Outcome State Fault Refusal :=
  match i with
  | .nop => Sys2Proof.Machine.execNop s
  | .startPulse => Sys2Proof.Machine.execStartPulse s
  | .readFrame => Sys2Proof.Machine.execReadFrame s
  | .acquire => Sys2Proof.Machine.execAcquire s
  | .btnAck => Sys2Proof.Machine.execBtnAck s

end Sys2Proof.Machine
end

