-- ==== Sys2Proof/Machine/Step.lean ====
section
/-! DEFINITION. One tick of the machine (00_scope.md R10) and the placing of a command word. -/

namespace Sys2Proof.Machine

/-- One tick: `rst` has priority over everything (70_reset_and_hazards.md R210); else the command of
the tick, if there is one, has its meaning; else the tick passes without a command. An instance with
parameters outside 00_scope.md R6 is refused (log 2). -/
def step (s : State) : Host.Outcome State Fault Refusal :=
  if s.cfg.Legal then
    if (inputs s).rst then .next (resetTick s)
    else
      match fetchCommand s with
      | some i => exec i s
      | none => .next (quietTick s)
  else .refused .illegalParameters

/-- `s` with the word of the opcode table's bits `w` written to `CMD` in the very next tick
(log 4). Bits that no 32-bit word holds are not placed. -/
def State.withFetchWord (s : State) (nbits w : Nat) : State :=
  match tableWord nbits w with
  | some v => placeCommandWord s v
  | none => s

end Sys2Proof.Machine
end

