-- ==== Sys2Proof/Safety.lean ====
section
/-! DEFINITION. The terms claims use: the invariants of 10_state.md R36, runs of several ticks, what
the environment does during a run, the level a wait waits out, and waveforms of the line. -/

namespace Sys2Proof.Machine

/-- 10_state.md R36 (a): the timer runs exactly while the input is suppressed. -/
abbrev InvTimer (s : State) : Prop :=
  (s.deb.state = .armed ↔ s.deb.cnt.toNat = 0) ∧
  (s.deb.state = .suppressed ↔ 1 ≤ s.deb.cnt.toNat ∧ s.deb.cnt.toNat ≤ s.cfg.debounceTicks)

/-- 10_state.md R36 (b): a valid frame is a checked one, and the decoder rests. -/
abbrev InvValid (s : State) : Prop :=
  s.dec.valid = true →
    s.dec.done = true ∧ s.dec.err = 0 ∧ s.dec.phase = .idle ∧
    s.dec.shreg.toNat % 256 =
      (s.dec.shreg.toNat / 2 ^ 32 + s.dec.shreg.toNat / 2 ^ 24 % 256 +
        s.dec.shreg.toNat / 2 ^ 16 % 256 + s.dec.shreg.toNat / 2 ^ 8 % 256) % 256

/-- 10_state.md R36 (c): after an error no frame is left. -/
abbrev InvErr (s : State) : Prop :=
  s.dec.err ≠ 0 →
    s.dec.done = true ∧ s.dec.valid = false ∧ s.dec.shreg = 0 ∧ s.dec.phase = .idle

/-- 10_state.md R36 (d): the counters rest in `IDLE`. -/
abbrev InvIdle (s : State) : Prop :=
  s.dec.phase = .idle → s.dec.cnt = 0 ∧ s.dec.bitcnt = 0 ∧ s.dec.chain = false

/-- 10_state.md R36 (e): a busy decoder shows no result. -/
abbrev InvBusy (s : State) : Prop :=
  s.dec.phase ≠ .idle →
    s.dec.done = false ∧ s.dec.valid = false ∧ s.dec.err = 0 ∧ s.dec.doneEvt = false

/-- 10_state.md R36 (f): each pulse comes with its level. -/
abbrev InvEvents (s : State) : Prop :=
  (s.dec.doneEvt = true → s.dec.done = true) ∧
  (s.deb.actEvt = true → s.deb.pending = true ∧ s.deb.state = .suppressed)

/-- 10_state.md R36 (g): the bit counter. -/
abbrev InvBitcnt (s : State) : Prop :=
  s.dec.bitcnt.toNat ≤ 39 ∧
  (s.dec.bitcnt ≠ 0 → s.dec.phase = .bitLow ∨ s.dec.phase = .bitHigh)

/-- 10_state.md R36 (h): the tick counter's bound. -/
abbrev InvCnt (s : State) : Prop :=
  s.dec.cnt.toNat ≤
    max (max (s.cfg.startLowTicks - 1) (s.cfg.startHighTicks - 1)) s.cfg.timeoutTicks

/-- 10_state.md R36 (i): a wait entered from a wait has counted a sample. -/
abbrev InvWait (s : State) : Prop :=
  s.dec.phase = .ackW1 ∨ s.dec.phase = .ackW2 ∨ s.dec.phase = .bitLow ∨ s.dec.phase = .bitHigh →
    1 ≤ s.dec.cnt.toNat

/-- 30_encoding.md R82: `ERR` 5, 6 and 7 are never produced. -/
abbrev InvErrCode (s : State) : Prop := s.dec.err.toNat ≤ 4

/-- The invariants of 10_state.md R36 (a) to (i), with the range of `ERR` (30_encoding.md R82). -/
abbrev Invariants (s : State) : Prop :=
  InvTimer s ∧ InvValid s ∧ InvErr s ∧ InvIdle s ∧ InvBusy s ∧ InvEvents s ∧ InvBitcnt s ∧
    InvCnt s ∧ InvWait s ∧ InvErrCode s

/-- `k` ticks from `s` end in `t`, with no stop. -/
abbrev Runs (k : Nat) (s t : State) : Prop := Host.Core.run Sys2Proof.core k s = .next t

/-- `rst` is 0 in the next `k` ticks. -/
abbrev NoReset (s : State) (k : Nat) : Prop := ∀ j, j < k → (inputsAt s j).rst = false

/-- The command is one of the decoder commands (40_decoder_commands.md R100). -/
def isDecoderCommand (c : Option Instr) : Bool :=
  match c with
  | some .startPulse => true
  | some .readFrame => true
  | some .acquire => true
  | some .nop => false
  | some .btnAck => false
  | none => false

/-- The host writes no decoder command in the next `k` ticks. -/
abbrev NoDecoderCommand (s : State) (k : Nat) : Prop :=
  ∀ j, j < k → isDecoderCommand (decodeAccess (inputsAt s j).host) = false

/-- The level a wait phase waits out (40_decoder_commands.md R111 to R115); the other phases wait
for nothing. -/
def awaitedLevel (p : Phase) : Option Bool :=
  match p with
  | .idle => none
  | .startLow => none
  | .startHigh => none
  | .ackW0 => some true
  | .ackW1 => some false
  | .ackW2 => some true
  | .bitLow => some false
  | .bitHigh => some true

/-- The most ticks from the tick of the write to the first tick with `DONE = 1`
(40_decoder_commands.md R120). -/
def completionBound (p : Params) (i : Instr) : Nat :=
  match i with
  | .nop => 0
  | .startPulse => p.startLowTicks + p.startHighTicks + 1
  | .readFrame => 1 + 83 * (p.timeoutTicks + 1)
  | .acquire => p.startLowTicks + p.startHighTicks + 1 + 83 * (p.timeoutTicks + 1)
  | .btnAck => 0

/-- The samples of one bit symbol: a separator of `b.1` ticks, a high pulse of `b.2` ticks
(30_encoding.md R77). -/
def symbolWave (b : Nat × Nat) : List Bool :=
  List.replicate b.1 false ++ List.replicate b.2 true

/-- The samples of one transaction as the decoder sees it (30_encoding.md R75): `idle` ticks high,
the acknowledgment's low and high pulses, the symbols, and one low sample that ends the last high
pulse. -/
def frameWave (idle ackl ackh : Nat) (bits : List (Nat × Nat)) : List Bool :=
  List.replicate idle true ++ List.replicate ackl false ++ List.replicate ackh true ++
    bits.flatMap symbolWave ++ [false]

/-- The frame whose bit `39 - k` says whether the `k`-th high pulse is longer than the threshold
(30_encoding.md R77, R78). -/
def wavePayload (p : Params) (bits : List (Nat × Nat)) : Nat :=
  bits.foldl (fun acc b => 2 * acc + (if p.bitThresholdTicks < b.2 then 1 else 0)) 0

end Sys2Proof.Machine
end

