-- ==== Sys2Proof/Certificates/Slice0/Obligations.lean ====
section
/-! DEFINITION. The statements for the provers. `exec i s` and a step with no `rst` are one tick; a
statement over a state quantifies over every instance (`s.cfg`), every placed input (`s.env`) and
every free input. -/

open Sys2Proof Sys2Proof.Machine

/-! ### Decoding and the step -/

/-- A step in a tick without `rst` whose write to `CMD` decodes to a command is that command's
meaning; with no command it is the quiet tick; with `rst` it is the reset tick (00_scope.md R10). -/
def Obligations.StepRunsTheDecodedCommand : Prop :=
  ∀ s : State, s.cfg.Legal →
    ((inputs s).rst = true → step s = .next (resetTick s)) ∧
    ((inputs s).rst = false →
      (∀ (v : Word) (i : Instr), (inputs s).host = .write 0#3 v → decodeWord v = .ok i → i.wf = true →
        step s = exec i s) ∧
      (decodeAccess (inputs s).host = none → step s = .next (quietTick s)))

/-- A few words written out from 30_encoding.md R71 and 95_test_vectors.md section 6. -/
def Obligations.SampleCommandWordsDecode : Prop :=
  decodeWord 0x00000000#32 = .ok .nop ∧ decodeWord 0x00000001#32 = .ok .startPulse ∧
  decodeWord 0x00000002#32 = .ok .readFrame ∧ decodeWord 0x00000003#32 = .ok .acquire ∧
  decodeWord 0x00000004#32 = .ok .btnAck ∧
  decodeWord 0x00000005#32 = .error (.reservedOp 5#3) ∧
  decodeWord 0x0000000B#32 = .error (.zeroFieldNotZero 1#29)

/-- `Decode(h)` is the case list of 30_encoding.md R72, for every access and every word. -/
def Obligations.CommandDecodeIsTheSpecsCaseList : Prop :=
  (∀ v : Word, v.toNat / 8 = 0 → v.toNat % 8 ≤ 4 →
    decodeAccess (.write 0#3 v) =
      [Instr.nop, Instr.startPulse, Instr.readFrame, Instr.acquire, Instr.btnAck][v.toNat % 8]?) ∧
  (∀ v : Word, ¬ (v.toNat / 8 = 0 ∧ v.toNat % 8 ≤ 4) → decodeAccess (.write 0#3 v) = none) ∧
  (∀ (r : RegNum) (v : Word), r ≠ 0#3 → decodeAccess (.write r v) = none) ∧
  (∀ r : RegNum, decodeAccess (.read r) = none) ∧
  decodeAccess .none = none

/-- Decoding and encoding agree: the words that decode to a command are exactly its encoding. -/
def Obligations.DecodeAndEncodeAgree : Prop :=
  ∀ (v : Word) (i : Instr), i.wf = true → (decodeWord v = .ok i ↔ v = encode i)

/-- A word that is no command, and a write to another register, leave the tick what it is with no
access (30_encoding.md R73, 20_memory.md R54). -/
def Obligations.DroppedWritesAreNoAccess : Prop :=
  ∀ (s : State) (i : Inputs),
    (∀ v : Word, 4 < v.toNat →
      step (setInputs s { i with host := .write 0#3 v }) = step (setInputs s { i with host := .none })) ∧
    (∀ (r : RegNum) (v : Word), r ≠ 0#3 →
      step (setInputs s { i with host := .write r v }) = step (setInputs s { i with host := .none }))

/-- An instance is refused exactly when a parameter breaks a constraint of 00_scope.md R6. That the
refusal comes from the step is the model's choice (log 2). -/
def Obligations.IllegalParametersAreRefused : Prop :=
  ∀ s : State, step s = .refused .illegalParameters ↔
    ¬ ((1 ≤ s.cfg.startLowTicks ∧ s.cfg.startLowTicks ≤ 32767) ∧
       (1 ≤ s.cfg.startHighTicks ∧ s.cfg.startHighTicks ≤ 32767) ∧
       (1 ≤ s.cfg.timeoutTicks ∧ s.cfg.timeoutTicks ≤ 32767) ∧
       (1 ≤ s.cfg.bitThresholdTicks ∧ s.cfg.bitThresholdTicks < s.cfg.timeoutTicks) ∧
       (1 ≤ s.cfg.debounceTicks ∧ s.cfg.debounceTicks ≤ 524287))

/-- The block steps in every tick: no state of a legal instance stops, and the parameters stay
(00_scope.md R2, R9; 93_implementation_defined.md U17). -/
def Obligations.LegalInstanceNeverStops : Prop :=
  ∀ s : State, s.cfg.Legal → ∃ t, step s = .next t ∧ t.cfg = s.cfg

/-! ### Reset -/

/-- Every element's reset value (10_state.md R48). That `State.reset` has the default parameters and the
open variant, written out field by field, is the model's choice (log 3, log 15). -/
def Obligations.ResetValuesOfEveryElement : Prop :=
  State.reset = State.resetWith Config.params ∧
  State.reset.cfg.startLowTicks = 18000 ∧ State.reset.cfg.startHighTicks = 30 ∧
  State.reset.cfg.timeoutTicks = 1000 ∧ State.reset.cfg.bitThresholdTicks = 50 ∧
  State.reset.cfg.debounceTicks = 300000 ∧ State.reset.cfg.variant = Config.variant ∧
  ∀ p : Params,
    (State.resetWith p).dec.phase = .idle ∧ (State.resetWith p).dec.chain = false ∧
    (State.resetWith p).dec.cnt = 0 ∧ (State.resetWith p).dec.bitcnt = 0 ∧
    (State.resetWith p).dec.shreg = 0 ∧ (State.resetWith p).dec.valid = false ∧
    (State.resetWith p).dec.done = false ∧ (State.resetWith p).dec.err = 0 ∧
    (State.resetWith p).dec.doneEvt = false ∧
    (State.resetWith p).deb.state = .armed ∧ (State.resetWith p).deb.cnt = 0 ∧
    (State.resetWith p).deb.btnPrev = false ∧ (State.resetWith p).deb.pending = false ∧
    (State.resetWith p).deb.actEvt = false

/-- What the host and the ports see after reset (70_reset_and_hazards.md R211, an inference the spec
marks as its own: "derived: from rule R210"). -/
def Obligations.RegistersAndOutputsAfterReset : Prop :=
  ∀ p : Params,
    regValue (State.resetWith p) 1#3 = (if p.variant = .extended then 0x80#32 else 0#32) ∧
    (∀ r : RegNum, r ≠ 1#3 → regValue (State.resetWith p) r = 0#32) ∧
    lineOe (State.resetWith p) = false ∧ lineOut (State.resetWith p) = false ∧
    doneEvtOut (State.resetWith p) = false ∧ doneLvl (State.resetWith p) = false ∧
    actEvtOut (State.resetWith p) = false ∧ actLvl (State.resetWith p) = false

/-- A tick with `rst = 1` gives every state element its reset value, whatever the state and the
access, keeps the parameters, and still answers a read from the start state
(70_reset_and_hazards.md R210). -/
def Obligations.ResetTickResetsEveryElement : Prop :=
  ∀ s : State, s.cfg.Legal → (inputs s).rst = true →
    (∃ t, step s = .next t ∧ t.dec = (State.resetWith s.cfg).dec ∧
      t.deb = (State.resetWith s.cfg).deb ∧ t.cfg = s.cfg) ∧
    ∀ r : RegNum, (inputs s).host = .read r → rdata s = regValue s r

/-! ### The host's reads -/

/-- `RegValue(S, r)` for all eight registers (20_memory.md R52): `STATUS` and `BTN` as the sums of
their fields, the result registers from `SHREG` while `VALID = 1` and 0 otherwise; the value is
that of the state at the start of the tick of the read. -/
def Obligations.ReadValuesOfAllRegisters : Prop :=
  ∀ s : State,
    regValue s 0#3 = 0#32 ∧
    (regValue s 1#3).toNat =
      (if s.cfg.variant = .extended then 128 else 0) + 16 * s.dec.err.toNat +
        (if s.dec.valid = true then 4 else 0) + (if s.dec.done = true then 2 else 0) +
        (if s.dec.phase = .idle then 0 else 1) ∧
    (regValue s 2#3).toNat = (if s.dec.valid = true then s.dec.shreg.toNat / 256 else 0) ∧
    (regValue s 3#3).toNat = (if s.dec.valid = true then s.dec.shreg.toNat % 256 else 0) ∧
    regValue s 4#3 = (if s.dec.valid = true then hum s.cfg.variant s.dec.shreg else 0#32) ∧
    regValue s 5#3 = (if s.dec.valid = true then temp32 s.cfg.variant s.dec.shreg else 0#32) ∧
    (regValue s 6#3).toNat =
      (if s.deb.pending = true then 2 else 0) + (if s.deb.state = .suppressed then 1 else 0) ∧
    regValue s 7#3 = 0#32 ∧
    ∀ r : RegNum, (inputs s).host = .read r → rdata s = regValue s r

/-- A read changes nothing: the tick is the one with no access; and what a read returns depends on
the decoder, the button controller and the parameters alone (20_memory.md R53). -/
def Obligations.ReadsHaveNoSideEffect : Prop :=
  (∀ (s : State) (i : Inputs) (r : RegNum),
    step (setInputs s { i with host := .read r }) = step (setInputs s { i with host := .none })) ∧
  (∀ (s t : State) (r : RegNum), t.dec = s.dec → t.deb = s.deb → t.cfg = s.cfg →
    regValue t r = regValue s r)

/-- `CMD` and register 7 read 0, reserved fields read 0, and a write to any register but `CMD`
leaves the tick what it is with no access (10_state.md R46). -/
def Obligations.ReservedRegistersReadZeroAndDropWrites : Prop :=
  (∀ s : State, regValue s 0#3 = 0#32 ∧ regValue s 7#3 = 0#32 ∧
    (regValue s 1#3).getLsbD 3 = false ∧ (∀ k, 8 ≤ k → (regValue s 1#3).getLsbD k = false) ∧
    (∀ k, 2 ≤ k → (regValue s 6#3).getLsbD k = false)) ∧
  ∀ (s : State) (i : Inputs) (r : RegNum) (v : Word), r ≠ 0#3 →
    step (setInputs s { i with host := .write r v }) = step (setInputs s { i with host := .none })

/-- Every output port, as a function of the state at the start of the tick (10_state.md R40);
`rdata` answers the access of the tick. -/
def Obligations.OutputsAreFunctionsOfTheStartState : Prop :=
  ∀ s : State,
    (lineOe s = true ↔ s.dec.phase = .startLow ∨ s.dec.phase = .startHigh) ∧
    (lineOut s = true ↔ s.dec.phase = .startHigh) ∧
    doneEvtOut s = s.dec.doneEvt ∧ doneLvl s = s.dec.done ∧
    actEvtOut s = s.deb.actEvt ∧ actLvl s = s.deb.pending ∧
    (∀ r : RegNum, (inputs s).host = .read r → rdata s = regValue s r) ∧
    ((∀ r : RegNum, (inputs s).host ≠ .read r) → rdata s = 0#32)

/-- In every state that meets the invariants the host reads one of the eight `STATUS` values of
10_state.md R39, with bit 7 set for the extended variant. The invariants are those of R36, which the
spec marks as derived. -/
def Obligations.StatusReadsOneOfEightValues : Prop :=
  ∀ s : State, Invariants s →
    (regValue s 1#3).toNat - (if s.cfg.variant = .extended then 128 else 0) ∈
      [0x00, 0x01, 0x02, 0x06, 0x12, 0x22, 0x32, 0x42] ∧
    ((regValue s 1#3).getLsbD 7 = true ↔ s.cfg.variant = .extended)

/-! ### The commands -/

/-- Acceptance in `IDLE`: the three decoder commands answer a next state in which the decoder has the
values of 40_decoder_commands.md R100; busy, they leave the tick what it is with no access. The
button controller, the parameters and the placed inputs go on as in a tick with no access. -/
def Obligations.DecoderCommandsAreAcceptedInIdleOnly : Prop :=
  ∀ s : State,
    (s.dec.phase = .idle →
      exec .startPulse s = .next { quietTick s with
        dec := { phase := .startLow, chain := false, cnt := 0, bitcnt := 0, shreg := 0,
                 valid := false, done := false, err := 0, doneEvt := false } } ∧
      exec .readFrame s = .next { quietTick s with
        dec := { phase := .ackW0, chain := false, cnt := 0, bitcnt := 0, shreg := 0,
                 valid := false, done := false, err := 0, doneEvt := false } } ∧
      exec .acquire s = .next { quietTick s with
        dec := { phase := .startLow, chain := true, cnt := 0, bitcnt := 0, shreg := 0,
                 valid := false, done := false, err := 0, doneEvt := false } }) ∧
    (s.dec.phase ≠ .idle →
      exec .startPulse s = .next (quietTick s) ∧ exec .readFrame s = .next (quietTick s) ∧
      exec .acquire s = .next (quietTick s))

/-- `NOP` answers the next state of the tick with no access, in every phase; a tick in which its word
is written is the tick with no access (40_decoder_commands.md R101). -/
def Obligations.NopLeavesTheTickAsWithNoAccess : Prop :=
  ∀ s : State, exec .nop s = .next (quietTick s) ∧
    ∀ i : Inputs,
      step (setInputs s { i with host := .write 0#3 0x00000000#32 }) =
        step (setInputs s { i with host := .none })

/-- `BTN_ACK` answers a next state, in every state, that differs from the tick with no access in
`PENDING` alone, which is 0 unless an activation falls in the same tick; its word is 4
(42_button_controller.md R165). -/
def Obligations.BtnAckChangesPendingAlone : Prop :=
  ∀ s : State,
    exec .btnAck s = .next { quietTick s with
      deb := { (quietTick s).deb with
        pending := decide (s.deb.state = .armed ∧ s.deb.btnPrev = true ∧
          (inputs s).btnIn = false) } } ∧
    (s.cfg.Legal → (inputs s).rst = false → (inputs s).host = .write 0#3 0x00000004#32 →
      step s = exec .btnAck s)

/-- Set wins: an activation in the tick of `BTN_ACK` ends the tick with `PENDING = 1`; every other
tick of `BTN_ACK` ends with 0 (42_button_controller.md R166). -/
def Obligations.ActivationWinsOverAcknowledge : Prop :=
  ∀ s : State, ∃ t, exec .btnAck s = .next t ∧
    (s.deb.state = .armed ∧ s.deb.btnPrev = true ∧ (inputs s).btnIn = false →
      t.deb.pending = true) ∧
    (¬ (s.deb.state = .armed ∧ s.deb.btnPrev = true ∧ (inputs s).btnIn = false) →
      t.deb.pending = false)

/-! ### The decoder's phases, one tick -/

/-- A tick in `IDLE`: a decoder command is accepted; without one only `DONE_EVT` changes, to 0. The line
is released, and `line_in` is not read (40_decoder_commands.md R105). -/
def Obligations.IdleTickHoldsTheResult : Prop :=
  ∀ s : State, s.cfg.Legal → (inputs s).rst = false → s.dec.phase = .idle →
    lineOe s = false ∧
    (isDecoderCommand (decodeAccess (inputs s).host) = false →
      ∃ t, step s = .next t ∧ t.dec = { s.dec with doneEvt := false }) ∧
    ∀ i : Instr, decodeAccess (inputs s).host = some i → isDecoderCommand (some i) = true →
      ∃ t, step s = .next t ∧
        t.dec = { phase := if i = .readFrame then .ackW0 else .startLow, chain := decide (i = .acquire),
                  cnt := 0, bitcnt := 0, shreg := 0, valid := false, done := false, err := 0,
                  doneEvt := false }

/-- Every transition of `PHASE` in one tick without `rst` (the table of 40_decoder_commands.md R117,
which the spec marks as derived from R100 to R116). -/
def Obligations.PhaseTransitionsAreTheTables : Prop :=
  ∀ s t : State, (inputs s).rst = false → s.dec.bitcnt.toNat ≤ 39 → step s = .next t →
    t.dec.phase =
      match s.dec.phase with
      | .idle =>
        if decodeAccess (inputs s).host = some .startPulse ∨
            decodeAccess (inputs s).host = some .acquire then .startLow
        else if decodeAccess (inputs s).host = some .readFrame then .ackW0 else .idle
      | .startLow =>
        if s.cfg.startLowTicks - 1 ≤ s.dec.cnt.toNat then .startHigh else .startLow
      | .startHigh =>
        if s.cfg.startHighTicks - 1 ≤ s.dec.cnt.toNat then
          (if s.dec.chain = true then .ackW0 else .idle)
        else .startHigh
      | .ackW0 =>
        if (inputs s).lineIn = false then .ackW1
        else if s.cfg.timeoutTicks ≤ s.dec.cnt.toNat then .idle else .ackW0
      | .ackW1 =>
        if (inputs s).lineIn = true then .ackW2
        else if s.cfg.timeoutTicks ≤ s.dec.cnt.toNat then .idle else .ackW1
      | .ackW2 =>
        if (inputs s).lineIn = false then .bitLow
        else if s.cfg.timeoutTicks ≤ s.dec.cnt.toNat then .idle else .ackW2
      | .bitLow =>
        if (inputs s).lineIn = true then .bitHigh
        else if s.cfg.timeoutTicks ≤ s.dec.cnt.toNat then .idle else .bitLow
      | .bitHigh =>
        if (inputs s).lineIn = false then
          (if s.dec.bitcnt.toNat < 39 then .bitLow else .idle)
        else if s.cfg.timeoutTicks ≤ s.dec.cnt.toNat then .idle else .bitHigh

/-- `ACK_W1` waits out the low pulse: on a 1 it goes to `ACK_W2` with `CNT = 1`, on a 0 it counts, and
a 0 past the timeout is `NoResponse` (40_decoder_commands.md R112). -/
def Obligations.AckW1WaitsOutTheLowPulse : Prop :=
  ∀ s : State, s.cfg.Legal → (inputs s).rst = false → s.dec.phase = .ackW1 →
    ((inputs s).lineIn = true →
      ∃ t, step s = .next t ∧ t.dec = { s.dec with phase := .ackW2, cnt := 1, doneEvt := false }) ∧
    ((inputs s).lineIn = false → s.dec.cnt.toNat < s.cfg.timeoutTicks →
      ∃ t, step s = .next t ∧ t.dec = { s.dec with cnt := s.dec.cnt + 1, doneEvt := false }) ∧
    ((inputs s).lineIn = false → s.cfg.timeoutTicks ≤ s.dec.cnt.toNat →
      ∃ t, step s = .next t ∧
        t.dec = { phase := .idle, chain := false, cnt := 0, bitcnt := 0, shreg := 0,
                  valid := false, done := true, err := 1, doneEvt := true })

/-- `ACK_W0` waits for the low pulse to begin: on a 0, at the first sample too, it goes to `ACK_W1`
with `CNT = 1`, on a 1 it counts, and a 1 past the timeout is `NoResponse`
(40_decoder_commands.md R111). -/
def Obligations.AckW0WaitsForTheLowPulse : Prop :=
  ∀ s : State, s.cfg.Legal → (inputs s).rst = false → s.dec.phase = .ackW0 →
    ((inputs s).lineIn = false →
      ∃ t, step s = .next t ∧ t.dec = { s.dec with phase := .ackW1, cnt := 1, doneEvt := false }) ∧
    ((inputs s).lineIn = true → s.dec.cnt.toNat < s.cfg.timeoutTicks →
      ∃ t, step s = .next t ∧ t.dec = { s.dec with cnt := s.dec.cnt + 1, doneEvt := false }) ∧
    ((inputs s).lineIn = true → s.cfg.timeoutTicks ≤ s.dec.cnt.toNat →
      ∃ t, step s = .next t ∧
        t.dec = { phase := .idle, chain := false, cnt := 0, bitcnt := 0, shreg := 0,
                  valid := false, done := true, err := 1, doneEvt := true })

/-- `ACK_W2` waits out the high pulse of the acknowledgment: on a 0 it goes to `BIT_LOW` with
`CNT = 1`, on a 1 it counts, and a 1 past the timeout is `NoResponse`
(40_decoder_commands.md R113). -/
def Obligations.AckW2WaitsOutTheHighPulse : Prop :=
  ∀ s : State, s.cfg.Legal → (inputs s).rst = false → s.dec.phase = .ackW2 →
    ((inputs s).lineIn = false →
      ∃ t, step s = .next t ∧ t.dec = { s.dec with phase := .bitLow, cnt := 1, doneEvt := false }) ∧
    ((inputs s).lineIn = true → s.dec.cnt.toNat < s.cfg.timeoutTicks →
      ∃ t, step s = .next t ∧ t.dec = { s.dec with cnt := s.dec.cnt + 1, doneEvt := false }) ∧
    ((inputs s).lineIn = true → s.cfg.timeoutTicks ≤ s.dec.cnt.toNat →
      ∃ t, step s = .next t ∧
        t.dec = { phase := .idle, chain := false, cnt := 0, bitcnt := 0, shreg := 0,
                  valid := false, done := true, err := 1, doneEvt := true })

/-- `BIT_LOW` waits out the separator, whose length is not used: on a 1 it goes to `BIT_HIGH` with
`CNT = 1`, on a 0 it counts, and a 0 past the timeout is `LowPulseTimeout`
(40_decoder_commands.md R114). -/
def Obligations.BitLowWaitsOutTheSeparator : Prop :=
  ∀ s : State, s.cfg.Legal → (inputs s).rst = false → s.dec.phase = .bitLow →
    ((inputs s).lineIn = true →
      ∃ t, step s = .next t ∧ t.dec = { s.dec with phase := .bitHigh, cnt := 1, doneEvt := false }) ∧
    ((inputs s).lineIn = false → s.dec.cnt.toNat < s.cfg.timeoutTicks →
      ∃ t, step s = .next t ∧ t.dec = { s.dec with cnt := s.dec.cnt + 1, doneEvt := false }) ∧
    ((inputs s).lineIn = false → s.cfg.timeoutTicks ≤ s.dec.cnt.toNat →
      ∃ t, step s = .next t ∧
        t.dec = { phase := .idle, chain := false, cnt := 0, bitcnt := 0, shreg := 0,
                  valid := false, done := true, err := 2, doneEvt := true })

/-- `BIT_HIGH` measures the high pulse: on a 1 it counts and keeps the rest, a 1 past the timeout is
`HighPulseTimeout`; on a 0 before bit 39 the bit, 1 when the pulse is longer than the threshold, is
shifted in at bit 0 and the next separator begins (40_decoder_commands.md R115; bit 39 is
`FrameCompletionChecksTheFrame`). -/
def Obligations.HighPulseEndShiftsTheBitIn : Prop :=
  ∀ s : State, s.cfg.Legal → (inputs s).rst = false → s.dec.phase = .bitHigh →
    ((inputs s).lineIn = false → s.dec.bitcnt.toNat < 39 →
      ∃ t, step s = .next t ∧
        t.dec = { s.dec with
          phase := .bitLow, cnt := 1, bitcnt := s.dec.bitcnt + 1, doneEvt := false,
          shreg := BitVec.ofNat 40 (2 * s.dec.shreg.toNat +
            (if s.cfg.bitThresholdTicks < s.dec.cnt.toNat then 1 else 0)) }) ∧
    ((inputs s).lineIn = true → s.dec.cnt.toNat < s.cfg.timeoutTicks →
      ∃ t, step s = .next t ∧ t.dec = { s.dec with cnt := s.dec.cnt + 1, doneEvt := false }) ∧
    ((inputs s).lineIn = true → s.cfg.timeoutTicks ≤ s.dec.cnt.toNat →
      ∃ t, step s = .next t ∧
        t.dec = { phase := .idle, chain := false, cnt := 0, bitcnt := 0, shreg := 0,
                  valid := false, done := true, err := 3, doneEvt := true })

/-- The completion of a frame read in the tick in which bit 39 is shifted in
(40_decoder_commands.md R116): the frame stands with `VALID = 1` when the checksum of its first four
bytes is its fifth, and is discarded with `ERR = 4` when not. -/
def Obligations.FrameCompletionChecksTheFrame : Prop :=
  ∀ (s : State) (f : Frame), s.cfg.Legal → (inputs s).rst = false → s.dec.phase = .bitHigh →
    (inputs s).lineIn = false → s.dec.bitcnt = 39 →
    f = BitVec.ofNat 40 (2 * s.dec.shreg.toNat +
      (if s.cfg.bitThresholdTicks < s.dec.cnt.toNat then 1 else 0)) →
    (checksum (byte0 f) (byte1 f) (byte2 f) (byte3 f) = byte4 f →
      ∃ t, step s = .next t ∧
        t.dec = { phase := .idle, chain := false, cnt := 0, bitcnt := 0, shreg := f,
                  valid := true, done := true, err := 0, doneEvt := true }) ∧
    (checksum (byte0 f) (byte1 f) (byte2 f) (byte3 f) ≠ byte4 f →
      ∃ t, step s = .next t ∧
        t.dec = { phase := .idle, chain := false, cnt := 0, bitcnt := 0, shreg := 0,
                  valid := false, done := true, err := 4, doneEvt := true })

/-- The error completion (60_exceptions.md R184), as any of the five waits or a wrong checksum raises
it: the decoder's state, what the host reads and the ports show in the next tick, and that
`done_evt` lasts that one tick. -/
def Obligations.ErrorCompletionDiscardsTheFrame : Prop :=
  ∀ (s : State) (e : Nat), s.cfg.Legal → (inputs s).rst = false →
    (awaitedLevel s.dec.phase = some (inputs s).lineIn ∧ s.cfg.timeoutTicks ≤ s.dec.cnt.toNat ∧
        e = (if s.dec.phase = .bitLow then 2 else if s.dec.phase = .bitHigh then 3 else 1)) ∨
      (s.dec.phase = .bitHigh ∧ (inputs s).lineIn = false ∧ s.dec.bitcnt = 39 ∧
        frameOk (shiftIn s.dec.shreg (symbolBit s.cfg s.dec.cnt)) = false ∧ e = 4) →
    lineOe s = false ∧
    ∃ t, step s = .next t ∧
      t.dec = { phase := .idle, chain := false, cnt := 0, bitcnt := 0, shreg := 0, valid := false,
                done := true, doneEvt := true, err := BitVec.ofNat 3 e } ∧
      (regValue t 1#3).toNat = (if s.cfg.variant = .extended then 128 else 0) + 16 * e + 2 ∧
      regValue t 2#3 = 0#32 ∧ regValue t 3#3 = 0#32 ∧ regValue t 4#3 = 0#32 ∧
      regValue t 5#3 = 0#32 ∧ doneEvtOut t = true ∧ doneLvl t = true ∧ lineOe t = false ∧
      ∀ u, step t = .next u → doneEvtOut u = false

/-- `DONE_EVT` is 1 after exactly the ticks in which a busy decoder goes to `IDLE`; then `DONE` is 1
too, and the next tick has `DONE_EVT = 0` (40_decoder_commands.md R119). -/
def Obligations.DonePulseMarksEachCompletion : Prop :=
  ∀ s t : State, step s = .next t →
    (t.dec.doneEvt = true ↔
      (inputs s).rst = false ∧ s.dec.phase ≠ .idle ∧ t.dec.phase = .idle) ∧
    (t.dec.doneEvt = true → t.dec.done = true ∧ ∀ u, step t = .next u → u.dec.doneEvt = false)

/-! ### The button controller, one tick -/

/-- `ACT_EVT` is 1 after exactly the ticks, without `rst`, of a falling edge in `Armed`; the activation
suppresses the input, loads the timer and sets `PENDING`, and nothing else sets `PENDING`; without
an edge an armed input stays armed; `PENDING` stays until it is acknowledged
(42_button_controller.md R161, R164). -/
def Obligations.ActivationIsAFallingEdgeWhileArmed : Prop :=
  ∀ s t : State, step s = .next t →
    (t.deb.actEvt = true ↔
      (inputs s).rst = false ∧ s.deb.state = .armed ∧ s.deb.btnPrev = true ∧
        (inputs s).btnIn = false) ∧
    (t.deb.actEvt = true →
      t.deb.state = .suppressed ∧ t.deb.cnt.toNat = s.cfg.debounceTicks ∧ t.deb.pending = true) ∧
    (t.deb.pending = true → s.deb.pending = true ∨ t.deb.actEvt = true) ∧
    ((inputs s).rst = false → s.deb.state = .armed → t.deb.actEvt = false →
      t.deb.state = .armed ∧ t.deb.cnt = s.deb.cnt) ∧
    ((inputs s).rst = false → decodeAccess (inputs s).host ≠ some .btnAck →
      s.deb.pending = true → t.deb.pending = true)

/-- The edge detector's memory is assigned in every tick without `rst`, and an edge is only a high
sample followed by a low one: no other pair of samples activates (42_button_controller.md R160). -/
def Obligations.EdgeDetectorRemembersTheLastSample : Prop :=
  ∀ s : State, s.cfg.Legal → (inputs s).rst = false →
    (fall s.deb (inputs s).btnIn = true ↔ s.deb.btnPrev = true ∧ (inputs s).btnIn = false) ∧
    ∃ t, step s = .next t ∧ t.deb.btnPrev = (inputs s).btnIn ∧
      (¬ (s.deb.btnPrev = true ∧ (inputs s).btnIn = false) → t.deb.actEvt = false) ∧
      (s.deb.state = .armed → s.deb.btnPrev = true → (inputs s).btnIn = false → t.deb.actEvt = true)

/-- `Suppressed`: whatever the edge, there is no event; the timer counts down, and at 1 or less it
expires into `Armed` with `DEB_CNT = 0` and emits nothing (42_button_controller.md R162, R163). -/
def Obligations.SuppressedInputOnlyCountsDown : Prop :=
  ∀ s : State, s.cfg.Legal → (inputs s).rst = false → s.deb.state = .suppressed →
    ∃ t, step s = .next t ∧ t.deb.actEvt = false ∧ t.deb.btnPrev = (inputs s).btnIn ∧
      (s.deb.cnt.toNat ≤ 1 → t.deb.state = .armed ∧ t.deb.cnt = 0) ∧
      (2 ≤ s.deb.cnt.toNat →
        t.deb.state = .suppressed ∧ t.deb.cnt.toNat = s.deb.cnt.toNat - 1) ∧
      (decodeAccess (inputs s).host ≠ some .btnAck → t.deb.pending = s.deb.pending)

/-! ### Frames and payloads -/

/-- `SymbolBit(n)` (30_encoding.md R77); with the defaults 50 ticks is a 0 and 51 ticks a 1. -/
def Obligations.SymbolBitComparesWithTheThreshold : Prop :=
  (∀ (p : Params) (n : BitVec 15), symbolBit p n = true ↔ p.bitThresholdTicks < n.toNat) ∧
  ∀ n : BitVec 15,
    (symbolBit Config.params n = false ↔ n.toNat ≤ 50) ∧
    (symbolBit Config.params n = true ↔ 51 ≤ n.toNat)

/-- The frame layout (30_encoding.md R78): of 40 bits shifted in, bit `k` ends in `SHREG[39 - k]`; and
the five bytes are the five base-256 digits of `SHREG`, the first the most significant. -/
def Obligations.ReceivedBitsLandMostSignificantFirst : Prop :=
  (∀ (bits : List Bool) (f : Frame), bits.length = 40 →
    ∀ k, k < 40 → (bits.foldl shiftIn f).getLsbD (39 - k) = bits.getD k false) ∧
  (∀ f : Frame,
    (byte0 f).toNat = f.toNat / 2 ^ 32 ∧ (byte1 f).toNat = f.toNat / 2 ^ 24 % 256 ∧
    (byte2 f).toNat = f.toNat / 2 ^ 16 % 256 ∧ (byte3 f).toNat = f.toNat / 2 ^ 8 % 256 ∧
    (byte4 f).toNat = f.toNat % 256)

/-- `Checksum` is the exact sum modulo 256, and a frame passes when it equals the fifth byte
(41_payload_interpretation.md R140, 30_encoding.md R79). -/
def Obligations.ChecksumIsTheSumModulo256 : Prop :=
  (∀ b0 b1 b2 b3 : Byte,
    (checksum b0 b1 b2 b3).toNat = (b0.toNat + b1.toNat + b2.toNat + b3.toNat) % 256) ∧
  ∀ f : Frame, frameOk f = true ↔
    (byte4 f).toNat =
      ((byte0 f).toNat + (byte1 f).toNat + (byte2 f).toNat + (byte3 f).toNat) % 256

/-- Flipping any one of the 40 bits of a frame that passes makes it fail; two flips can cancel
(41_payload_interpretation.md R141, which the spec marks as derived from R140). -/
def Obligations.EverySingleBitFlipIsDetected : Prop :=
  (∀ (f : Frame) (k : Nat), k < 40 → frameOk f = true → frameOk (f ^^^ BitVec.twoPow 40 k) = false) ∧
  ∃ (f : Frame) (j k : Nat), j < k ∧ k < 40 ∧ frameOk f = true ∧
    frameOk (f ^^^ BitVec.twoPow 40 j ^^^ BitVec.twoPow 40 k) = true

/-- The simple-precision payload: whole percent in `b0`, whole degrees in `b2`, both unsigned; `b1` and
`b3` are ignored (41_payload_interpretation.md R142, R143). -/
def Obligations.SimplePayloadIsTheWholeBytes : Prop :=
  ∀ f : Frame,
    (hum .simple f).toNat = (byte0 f).toNat ∧ (temp32 .simple f).toNat = (byte2 f).toNat

/-- The extended humidity: the 16 bits `b0`, `b1`, the first byte the high one
(41_payload_interpretation.md R144). -/
def Obligations.ExtendedHumidityIsBigEndian : Prop :=
  ∀ f : Frame, (hum .extended f).toNat = 256 * (byte0 f).toNat + (byte1 f).toNat

/-- The extended temperature as a signed number: bit 7 of `b2` is the sign and the 15 bits below it and
`b3` the magnitude, in tenths; so it lies between -32767 and 32767
(41_payload_interpretation.md R145). -/
def Obligations.ExtendedTemperatureIsSignAndMagnitude : Prop :=
  ∀ f : Frame,
    (temp32 .extended f).toInt =
      (if 128 ≤ (byte2 f).toNat then
        -(((byte2 f).toNat % 128 * 256 + (byte3 f).toNat : Nat) : Int)
      else (((byte2 f).toNat * 256 + (byte3 f).toNat : Nat) : Int)) ∧
    -32767 ≤ (temp32 .extended f).toInt ∧ (temp32 .extended f).toInt ≤ 32767

/-! ### Runs of many ticks -/

/-- `START_LOW` lasts exactly `START_LOW_TICKS` ticks, `CNT` from 0 to `START_LOW_TICKS - 1`, with the
line driven low, whatever `line_in` is; then `START_HIGH` begins with `CNT = 0`. The first clause is
one tick, from any `CNT` (40_decoder_commands.md R106). -/
def Obligations.StartLowLastsItsTicks : Prop :=
  (∀ s : State, s.cfg.Legal → (inputs s).rst = false → s.dec.phase = .startLow →
    ∃ t, step s = .next t ∧
      t.dec = (if s.cfg.startLowTicks - 1 ≤ s.dec.cnt.toNat then
          { s.dec with phase := .startHigh, cnt := 0, doneEvt := false }
        else { s.dec with cnt := s.dec.cnt + 1, doneEvt := false })) ∧
  ∀ s : State, s.cfg.Legal → s.dec.phase = .startLow → s.dec.cnt = 0 →
    NoReset s s.cfg.startLowTicks →
    (∀ k, k < s.cfg.startLowTicks → ∃ t, Runs k s t ∧ t.dec.phase = .startLow ∧
      t.dec.cnt.toNat = k ∧ lineOe t = true ∧ lineOut t = false) ∧
    ∃ t, Runs s.cfg.startLowTicks s t ∧ t.dec.phase = .startHigh ∧ t.dec.cnt = 0

/-- `START_HIGH` lasts exactly `START_HIGH_TICKS` ticks with the line driven high; then an `ACQUIRE`
goes on to `ACK_W0` and a `START_PULSE` completes, and the line is released. The first clause is one
tick, from any `CNT` (40_decoder_commands.md R107). -/
def Obligations.StartHighLastsItsTicks : Prop :=
  (∀ s : State, s.cfg.Legal → (inputs s).rst = false → s.dec.phase = .startHigh →
    ∃ t, step s = .next t ∧
      t.dec = (if s.cfg.startHighTicks - 1 ≤ s.dec.cnt.toNat then
          (if s.dec.chain = true then { s.dec with phase := .ackW0, cnt := 0, doneEvt := false }
          else { s.dec with phase := .idle, cnt := 0, done := true, doneEvt := true })
        else { s.dec with cnt := s.dec.cnt + 1, doneEvt := false })) ∧
  ∀ s : State, s.cfg.Legal → s.dec.phase = .startHigh → s.dec.cnt = 0 →
    NoReset s s.cfg.startHighTicks →
    (∀ k, k < s.cfg.startHighTicks → ∃ t, Runs k s t ∧ t.dec.phase = .startHigh ∧
      t.dec.cnt.toNat = k ∧ lineOe t = true ∧ lineOut t = true) ∧
    ∃ t, Runs s.cfg.startHighTicks s t ∧ t.dec.cnt = 0 ∧ lineOe t = false ∧
      (s.dec.chain = true → t.dec.phase = .ackW0) ∧
      (s.dec.chain = false → t.dec.phase = .idle ∧ t.dec.done = true ∧ t.dec.doneEvt = true)

/-- `START_PULSE` tick by tick, from the tick of its write (40_decoder_commands.md R102): low, high,
then released and done, without a frame and without an error. -/
def Obligations.StartPulseDrivesTheWakePulse : Prop :=
  ∀ s : State, s.cfg.Legal → s.dec.phase = .idle →
    decodeAccess (inputs s).host = some .startPulse →
    NoReset s (s.cfg.startLowTicks + s.cfg.startHighTicks + 1) →
    (∀ k, 1 ≤ k → k ≤ s.cfg.startLowTicks →
      ∃ t, Runs k s t ∧ lineOe t = true ∧ lineOut t = false ∧ t.dec.done = false) ∧
    (∀ k, s.cfg.startLowTicks < k → k ≤ s.cfg.startLowTicks + s.cfg.startHighTicks →
      ∃ t, Runs k s t ∧ lineOe t = true ∧ lineOut t = true ∧ t.dec.done = false) ∧
    ∃ t, Runs (s.cfg.startLowTicks + s.cfg.startHighTicks + 1) s t ∧
      t.dec = { phase := .idle, chain := false, cnt := 0, bitcnt := 0, shreg := 0,
                valid := false, done := true, err := 0, doneEvt := true } ∧
      lineOe t = false

/-- `ACQUIRE` drives the wake pulse, low and then high, and then reads the frame with no gap: the first
sample of `ACK_W0` is taken in the first tick with the line released, with no completion before it
(40_decoder_commands.md R104). -/
def Obligations.AcquireReadsRightAfterTheWakePulse : Prop :=
  ∀ s : State, s.cfg.Legal → s.dec.phase = .idle →
    decodeAccess (inputs s).host = some .acquire →
    NoReset s (s.cfg.startLowTicks + s.cfg.startHighTicks + 1) →
    (∀ k, 1 ≤ k → k ≤ s.cfg.startLowTicks →
      ∃ t, Runs k s t ∧ lineOe t = true ∧ lineOut t = false ∧ t.dec.doneEvt = false) ∧
    (∀ k, s.cfg.startLowTicks < k → k ≤ s.cfg.startLowTicks + s.cfg.startHighTicks →
      ∃ t, Runs k s t ∧ lineOe t = true ∧ lineOut t = true ∧ t.dec.doneEvt = false) ∧
    ∃ t, Runs (s.cfg.startLowTicks + s.cfg.startHighTicks + 1) s t ∧ lineOe t = false ∧
      t.dec = { phase := .ackW0, chain := true, cnt := 0, bitcnt := 0, shreg := 0,
                valid := false, done := false, err := 0, doneEvt := false }

/-- A line that stays at the level a wait waits out ends the wait in its own error, at the
`TIMEOUT_TICKS + 1`-th consecutive sample and not before (40_decoder_commands.md R110 (b), (d),
consequences the spec marks as derived). -/
def Obligations.StuckLineRaisesTheWaitsError : Prop :=
  ∀ (s : State) (lv : Bool), s.cfg.Legal → awaitedLevel s.dec.phase = some lv →
    s.dec.cnt.toNat ≤ s.cfg.timeoutTicks →
    NoReset s (s.cfg.timeoutTicks + 1 - s.dec.cnt.toNat) →
    (∀ j, j < s.cfg.timeoutTicks + 1 - s.dec.cnt.toNat → (inputsAt s j).lineIn = lv) →
    (∀ k, k < s.cfg.timeoutTicks + 1 - s.dec.cnt.toNat →
      ∃ t, Runs k s t ∧ t.dec.phase = s.dec.phase ∧ t.dec.cnt.toNat = s.dec.cnt.toNat + k) ∧
    ∃ t, Runs (s.cfg.timeoutTicks + 1 - s.dec.cnt.toNat) s t ∧ t.dec.phase = .idle ∧
      t.dec.done = true ∧ t.dec.valid = false ∧ t.dec.shreg = 0 ∧
      t.dec.err =
        (if s.dec.phase = .bitLow then 2 else if s.dec.phase = .bitHigh then 3 else 1)

/-- A high pulse of at most `TIMEOUT_TICKS` samples in `BIT_HIGH`, `n` of them still to come, is
measured exactly: when the line falls the bit shifted in is 1 just when the whole length exceeds
the threshold (40_decoder_commands.md R110 (a), a consequence the spec marks as derived, and R115). -/
def Obligations.HighPulseLengthIsTheBit : Prop :=
  ∀ (s : State) (n : Nat), s.cfg.Legal → s.dec.phase = .bitHigh → s.dec.bitcnt.toNat < 39 →
    s.dec.cnt.toNat + n ≤ s.cfg.timeoutTicks → NoReset s (n + 1) →
    (∀ j, j < n → (inputsAt s j).lineIn = true) → (inputsAt s n).lineIn = false →
    ∃ t, Runs (n + 1) s t ∧ t.dec.phase = .bitLow ∧ t.dec.cnt = 1 ∧
      t.dec.bitcnt.toNat = s.dec.bitcnt.toNat + 1 ∧
      (t.dec.shreg.getLsbD 0 = true ↔ s.cfg.bitThresholdTicks < s.dec.cnt.toNat + n) ∧
      ∀ k, k < 39 → t.dec.shreg.getLsbD (k + 1) = s.dec.shreg.getLsbD k

/-- A whole transaction: after `READ_FRAME` is accepted, a line that is idle, acknowledges and sends 40
symbols, every pulse within the timeout, is decoded to the frame of its pulse widths in the tick
after the last low sample, or to `ChecksumMismatch` (40_decoder_commands.md R103, R110 to R116). -/
def Obligations.ReadFrameDecodesTheWaveform : Prop :=
  ∀ (s : State) (idle ackl ackh : Nat) (bits : List (Nat × Nat)) (f : Frame), s.cfg.Legal →
    s.dec.phase = .idle → decodeAccess (inputs s).host = some .readFrame →
    idle ≤ s.cfg.timeoutTicks → 1 ≤ ackl → ackl ≤ s.cfg.timeoutTicks → 1 ≤ ackh →
    ackh ≤ s.cfg.timeoutTicks → bits.length = 40 →
    (∀ b ∈ bits, 1 ≤ b.1 ∧ b.1 ≤ s.cfg.timeoutTicks ∧ 1 ≤ b.2 ∧ b.2 ≤ s.cfg.timeoutTicks) →
    NoReset s ((frameWave idle ackl ackh bits).length + 1) →
    (∀ j, j < (frameWave idle ackl ackh bits).length →
      (inputsAt s (j + 1)).lineIn = (frameWave idle ackl ackh bits).getD j false) →
    f.toNat = wavePayload s.cfg bits →
    ∃ t, Runs ((frameWave idle ackl ackh bits).length + 1) s t ∧
      t.dec.phase = .idle ∧ t.dec.done = true ∧ t.dec.doneEvt = true ∧
      (frameOk f = true → t.dec.valid = true ∧ t.dec.err = 0 ∧ t.dec.shreg = f) ∧
      (frameOk f = false → t.dec.valid = false ∧ t.dec.err = 4 ∧ t.dec.shreg = 0)

/-- Every accepted decoder command completes within the bound of 40_decoder_commands.md R120, whatever
the line and the host do, and the decoder is busy until then; `START_PULSE` takes exactly its
bound. The spec marks the bounds as derived from R106, R107 and R110. -/
def Obligations.EveryDecoderCommandCompletes : Prop :=
  ∀ (s : State) (i : Instr), s.cfg.Legal → s.dec.phase = .idle →
    decodeAccess (inputs s).host = some i → isDecoderCommand (some i) = true →
    NoReset s (completionBound s.cfg i) →
    ∃ k, 1 ≤ k ∧ k ≤ completionBound s.cfg i ∧
      (i = .startPulse → k = completionBound s.cfg i) ∧
      (∃ t, Runs k s t ∧ t.dec.phase = .idle ∧ t.dec.done = true ∧ t.dec.doneEvt = true) ∧
      ∀ j, 1 ≤ j → j < k → ∃ u, Runs j s u ∧ u.dec.phase ≠ .idle ∧ u.dec.done = false

/-- While the decoder rests and the host writes no decoder command, the result stays: `SHREG`,
`VALID`, `DONE` and `ERR`, and with them `DATA`, `CHK`, `HUM` and `TEMP` (20_memory.md R57, which the
spec marks as derived from R100 and R105). -/
def Obligations.ResultStaysUntilTheNextCommand : Prop :=
  ∀ (k : Nat) (s t : State), s.dec.phase = .idle → NoReset s k → NoDecoderCommand s k →
    Runs k s t →
    t.dec.phase = .idle ∧ t.dec.shreg = s.dec.shreg ∧ t.dec.valid = s.dec.valid ∧
    t.dec.done = s.dec.done ∧ t.dec.err = s.dec.err ∧
    regValue t 2#3 = regValue s 2#3 ∧ regValue t 3#3 = regValue s 3#3 ∧
    regValue t 4#3 = regValue s 4#3 ∧ regValue t 5#3 = regValue s 5#3

/-- Nothing but `rst` lets the host disturb an executing command: two runs with the same decoder, line
and `rst`, and any accesses at all, end in the same decoder as long as the first stays busy
(40_decoder_commands.md R121). -/
def Obligations.HostCannotDisturbABusyDecoder : Prop :=
  ∀ (k : Nat) (s s' t t' : State), s'.cfg = s.cfg → s'.dec = s.dec →
    (∀ j, j < k → (inputsAt s' j).rst = (inputsAt s j).rst ∧
      (inputsAt s' j).lineIn = (inputsAt s j).lineIn) →
    (∀ j u, j < k → Runs j s u → u.dec.phase ≠ .idle) →
    Runs k s t → Runs k s' t' → t'.dec = t.dec

/-- No button input and no button-controller state reaches the decoder: two runs with the same decoder,
line, `rst` and accesses end in the same decoder, whatever `btn_in` (10_state.md R20). -/
def Obligations.DecoderIgnoresTheButton : Prop :=
  ∀ (k : Nat) (s s' t t' : State), s'.cfg = s.cfg → s'.dec = s.dec →
    (∀ j, j < k → (inputsAt s' j).rst = (inputsAt s j).rst ∧
      (inputsAt s' j).lineIn = (inputsAt s j).lineIn ∧
      (inputsAt s' j).host = (inputsAt s j).host) →
    Runs k s t → Runs k s' t' → t'.dec = t.dec

/-- No line input, no decoder state and no decoder command reaches the button controller: two runs
with the same button controller, `btn_in` and `rst` and acknowledges in the same ticks end in the
same button controller (10_state.md R20). -/
def Obligations.ButtonIgnoresTheDecoder : Prop :=
  ∀ (k : Nat) (s s' t t' : State), s'.cfg = s.cfg → s'.deb = s.deb →
    (∀ j, j < k → (inputsAt s' j).rst = (inputsAt s j).rst ∧
      (inputsAt s' j).btnIn = (inputsAt s j).btnIn ∧
      (decodeAccess (inputsAt s' j).host = some .btnAck ↔
        decodeAccess (inputsAt s j).host = some .btnAck)) →
    Runs k s t → Runs k s' t' → t'.deb = t.deb

/-- The debounce window tick by tick (42_button_controller.md R168 (a), (b), (d)): after a qualifying
edge the input is suppressed for `DEBOUNCE_TICKS` ticks, the timer counts down from
`DEBOUNCE_TICKS` to 1, `ACT_EVT` shows in the first tick alone, `PENDING` is 1 there; then the input is
armed again. The spec marks R168 as derived from R160 to R164. -/
def Obligations.DebounceWindowTickByTick : Prop :=
  ∀ s : State, s.cfg.Legal → s.deb.state = .armed → s.deb.btnPrev = true →
    (inputs s).btnIn = false → NoReset s (s.cfg.debounceTicks + 1) →
    (∀ k, 1 ≤ k → k ≤ s.cfg.debounceTicks → ∃ t, Runs k s t ∧ t.deb.state = .suppressed ∧
      t.deb.cnt.toNat = s.cfg.debounceTicks - k + 1 ∧ (t.deb.actEvt = true ↔ k = 1) ∧
      (k = 1 → t.deb.pending = true)) ∧
    ∃ t, Runs (s.cfg.debounceTicks + 1) s t ∧ t.deb.state = .armed ∧ t.deb.cnt = 0 ∧
      t.deb.actEvt = false

/-- Two activations are at least `DEBOUNCE_TICKS + 1` ticks apart, whatever the button does
(42_button_controller.md R168, which the spec marks as derived from R160 to R164). -/
def Obligations.ActivationsAreSpacedByTheWindow : Prop :=
  ∀ (s t u : State) (j k : Nat), 1 ≤ j → j < k → NoReset s k →
    Runs j s t → t.deb.actEvt = true → Runs k s u → u.deb.actEvt = true →
    s.cfg.debounceTicks + 1 ≤ k - j

/-! ### The invariants -/

/-- The invariants hold after reset, for every choice of the parameters (10_state.md R36, which the
spec marks as derived). -/
def Obligations.InvariantsHoldAfterReset : Prop :=
  Invariants State.reset ∧ ∀ p : Params, Invariants (State.resetWith p)

/-- Every tick keeps the invariants of 10_state.md R36, which the spec marks as derived, and the range
of `ERR` (30_encoding.md R82). -/
def Obligations.EveryTickKeepsTheInvariants : Prop :=
  ∀ s t : State, Invariants s → step s = .next t → Invariants t
end

