-- ==== Sys2Proof/Laws/State.lean ====
section
/-! SUPPORT. One lemma per field per update of the state, each true by `rfl`. -/

namespace Sys2Proof.Machine

@[simp] theorem endTick_dec (s : State) (d : Dec) (b : Deb) : (endTick s d b).dec = d := rfl
@[simp] theorem endTick_deb (s : State) (d : Dec) (b : Deb) : (endTick s d b).deb = b := rfl
@[simp] theorem endTick_cfg (s : State) (d : Dec) (b : Deb) : (endTick s d b).cfg = s.cfg := rfl
@[simp] theorem endTick_env (s : State) (d : Dec) (b : Deb) : (endTick s d b).env = s.env.tail := rfl
@[simp] theorem endTick_now (s : State) (d : Dec) (b : Deb) : (endTick s d b).now = s.now + 1 := rfl

@[simp] theorem setInputs_dec (s : State) (i : Inputs) : (setInputs s i).dec = s.dec := rfl
@[simp] theorem setInputs_deb (s : State) (i : Inputs) : (setInputs s i).deb = s.deb := rfl
@[simp] theorem setInputs_cfg (s : State) (i : Inputs) : (setInputs s i).cfg = s.cfg := rfl
@[simp] theorem setInputs_env (s : State) (i : Inputs) : (setInputs s i).env = i :: s.env.tail := rfl
@[simp] theorem setInputs_now (s : State) (i : Inputs) : (setInputs s i).now = s.now := rfl

@[simp] theorem resetWith_dec (p : Params) : (State.resetWith p).dec = Dec.reset := rfl
@[simp] theorem resetWith_deb (p : Params) : (State.resetWith p).deb = Deb.reset := rfl
@[simp] theorem resetWith_cfg (p : Params) : (State.resetWith p).cfg = p := rfl
@[simp] theorem resetWith_env (p : Params) : (State.resetWith p).env = [] := rfl
@[simp] theorem resetWith_now (p : Params) : (State.resetWith p).now = 0 := rfl

@[simp] theorem accept_phase (q : Phase) (c : Bool) (d : Dec) : (accept q c d).phase = q := rfl
@[simp] theorem accept_chain (q : Phase) (c : Bool) (d : Dec) : (accept q c d).chain = c := rfl
@[simp] theorem accept_cnt (q : Phase) (c : Bool) (d : Dec) : (accept q c d).cnt = 0 := rfl
@[simp] theorem accept_bitcnt (q : Phase) (c : Bool) (d : Dec) : (accept q c d).bitcnt = 0 := rfl
@[simp] theorem accept_shreg (q : Phase) (c : Bool) (d : Dec) : (accept q c d).shreg = 0 := rfl
@[simp] theorem accept_valid (q : Phase) (c : Bool) (d : Dec) : (accept q c d).valid = false := rfl
@[simp] theorem accept_done (q : Phase) (c : Bool) (d : Dec) : (accept q c d).done = false := rfl
@[simp] theorem accept_err (q : Phase) (c : Bool) (d : Dec) : (accept q c d).err = 0 := rfl
@[simp] theorem accept_doneEvt (q : Phase) (c : Bool) (d : Dec) : (accept q c d).doneEvt = false := rfl

@[simp] theorem raiseError_phase (e : DecodeError) (d : Dec) : (raiseError e d).phase = .idle := rfl
@[simp] theorem raiseError_chain (e : DecodeError) (d : Dec) : (raiseError e d).chain = false := rfl
@[simp] theorem raiseError_cnt (e : DecodeError) (d : Dec) : (raiseError e d).cnt = 0 := rfl
@[simp] theorem raiseError_bitcnt (e : DecodeError) (d : Dec) : (raiseError e d).bitcnt = 0 := rfl
@[simp] theorem raiseError_shreg (e : DecodeError) (d : Dec) : (raiseError e d).shreg = 0 := rfl
@[simp] theorem raiseError_valid (e : DecodeError) (d : Dec) : (raiseError e d).valid = false := rfl
@[simp] theorem raiseError_done (e : DecodeError) (d : Dec) : (raiseError e d).done = true := rfl
@[simp] theorem raiseError_err (e : DecodeError) (d : Dec) : (raiseError e d).err = errCode e := rfl
@[simp] theorem raiseError_doneEvt (e : DecodeError) (d : Dec) : (raiseError e d).doneEvt = true := rfl

@[simp] theorem completePulse_phase (d : Dec) : (completePulse d).phase = .idle := rfl
@[simp] theorem completePulse_chain (d : Dec) : (completePulse d).chain = d.chain := rfl
@[simp] theorem completePulse_cnt (d : Dec) : (completePulse d).cnt = 0 := rfl
@[simp] theorem completePulse_bitcnt (d : Dec) : (completePulse d).bitcnt = d.bitcnt := rfl
@[simp] theorem completePulse_shreg (d : Dec) : (completePulse d).shreg = d.shreg := rfl
@[simp] theorem completePulse_valid (d : Dec) : (completePulse d).valid = d.valid := rfl
@[simp] theorem completePulse_done (d : Dec) : (completePulse d).done = true := rfl
@[simp] theorem completePulse_err (d : Dec) : (completePulse d).err = d.err := rfl
@[simp] theorem completePulse_doneEvt (d : Dec) : (completePulse d).doneEvt = true := rfl

@[simp] theorem activate_state (p : Params) (b : Deb) : (activate p b).state = .suppressed := rfl
@[simp] theorem activate_cnt (p : Params) (b : Deb) : (activate p b).cnt = BitVec.ofNat 19 p.debounceTicks := rfl
@[simp] theorem activate_btnPrev (p : Params) (b : Deb) : (activate p b).btnPrev = b.btnPrev := rfl
@[simp] theorem activate_pending (p : Params) (b : Deb) : (activate p b).pending = true := rfl
@[simp] theorem activate_actEvt (p : Params) (b : Deb) : (activate p b).actEvt = true := rfl

@[simp] theorem expire_state (b : Deb) : (expire b).state = .armed := rfl
@[simp] theorem expire_cnt (b : Deb) : (expire b).cnt = 0 := rfl
@[simp] theorem expire_btnPrev (b : Deb) : (expire b).btnPrev = b.btnPrev := rfl
@[simp] theorem expire_pending (b : Deb) : (expire b).pending = b.pending := rfl
@[simp] theorem expire_actEvt (b : Deb) : (expire b).actEvt = b.actEvt := rfl

@[simp] theorem debDefaults_state (btn ack : Bool) (b : Deb) : (debDefaults btn ack b).state = b.state := rfl
@[simp] theorem debDefaults_cnt (btn ack : Bool) (b : Deb) : (debDefaults btn ack b).cnt = b.cnt := rfl
@[simp] theorem debDefaults_btnPrev (btn ack : Bool) (b : Deb) : (debDefaults btn ack b).btnPrev = btn := rfl
@[simp] theorem debDefaults_pending (btn ack : Bool) (b : Deb) : (debDefaults btn ack b).pending = (b.pending && !ack) := rfl
@[simp] theorem debDefaults_actEvt (btn ack : Bool) (b : Deb) : (debDefaults btn ack b).actEvt = false := rfl

@[simp] theorem quietTick_dec (s : State) : (quietTick s).dec = decQuiet s := rfl
@[simp] theorem quietTick_deb (s : State) : (quietTick s).deb = debQuiet s := rfl
@[simp] theorem quietTick_cfg (s : State) : (quietTick s).cfg = s.cfg := rfl
@[simp] theorem quietTick_env (s : State) : (quietTick s).env = s.env.tail := rfl
@[simp] theorem quietTick_now (s : State) : (quietTick s).now = s.now + 1 := rfl

@[simp] theorem resetTick_dec (s : State) : (resetTick s).dec = Dec.reset := rfl
@[simp] theorem resetTick_deb (s : State) : (resetTick s).deb = Deb.reset := rfl
@[simp] theorem resetTick_cfg (s : State) : (resetTick s).cfg = s.cfg := rfl
@[simp] theorem resetTick_env (s : State) : (resetTick s).env = s.env.tail := rfl
@[simp] theorem resetTick_now (s : State) : (resetTick s).now = s.now + 1 := rfl

end Sys2Proof.Machine
end

