-- ==== Sys2Proof/Laws/Inputs.lean ====
section
/-! SUPPORT. Which inputs a tick sees after an update of the state. -/

namespace Sys2Proof.Machine

/-- After a tick the inputs `j` ticks ahead are those that were `j + 1` ticks ahead. -/
@[simp] theorem inputsAt_endTick (s : State) (d : Dec) (b : Deb) (j : Nat) :
    inputsAt (endTick s d b) j = inputsAt s (j + 1) := by
  have h : s.now + 1 + j = s.now + (j + 1) := by omega
  simp [inputsAt, h]

/-- Placing the inputs of the current tick makes them the ones sampled. -/
@[simp] theorem inputs_setInputs (s : State) (i : Inputs) : inputs (setInputs s i) = i := rfl

/-- Placing the inputs of the current tick leaves those of a placed later tick alone. -/
theorem inputsAt_setInputs_succ (s : State) (i : Inputs) (j : Nat) :
    inputsAt (setInputs s i) (j + 1) = inputsAt s (j + 1) := by
  simp [inputsAt]

/-- A placed command word is the access of the tick, in a tick without `rst`. -/
theorem inputs_placeCommandWord (s : State) (v : Word) :
    inputs (placeCommandWord s v) = { inputs s with rst := false, host := .write regCmd v } := rfl

end Sys2Proof.Machine
end

