-- ==== Sys2Proof/Laws/Button.lean ====
section
/-! SUPPORT. What one tick of the button controller can do, said once. -/

namespace Sys2Proof.Machine

/-- The three ways a tick of the button controller can go: an activation, an expiry, or neither
(the table of 42_button_controller.md R167). -/
theorem debStep_cases (p : Params) (btn ack : Bool) (b : Deb) :
    (b.state = .armed ∧ fall b btn = true ∧
      debStep p btn ack b = activate p (debDefaults btn ack b)) ∨
    (b.state = .armed ∧ fall b btn = false ∧ debStep p btn ack b = debDefaults btn ack b) ∨
    (b.state = .suppressed ∧ b.cnt.toNat ≤ 1 ∧
      debStep p btn ack b = expire (debDefaults btn ack b)) ∨
    (b.state = .suppressed ∧ 2 ≤ b.cnt.toNat ∧
      debStep p btn ack b = { debDefaults btn ack b with cnt := b.cnt - 1 }) := by
  cases h : b.state
  · cases hf : fall b btn
    · exact .inr (.inl ⟨rfl, rfl, by simp [debStep, h, armedTick, hf]⟩)
    · exact .inl ⟨rfl, rfl, by simp [debStep, h, armedTick, hf]⟩
  · by_cases hc : b.cnt.toNat ≤ 1
    · exact .inr (.inr (.inl ⟨rfl, hc, by simp [debStep, h, suppressedTick, hc]⟩))
    · exact .inr (.inr (.inr ⟨rfl, by omega, by simp [debStep, h, suppressedTick, hc]⟩))

/-- An edge is a high sample followed by a low one (42_button_controller.md R160). -/
theorem fall_eq_true_iff (b : Deb) (btn : Bool) :
    fall b btn = true ↔ b.btnPrev = true ∧ btn = false := by
  simp [fall]

end Sys2Proof.Machine
end

