-- ==== Sys2Proof/Laws/PerInstr.lean ====
section
/-! SUPPORT. The family proved command by command: decoding the word the encoder writes gives the
command back (30_encoding.md R70 to R72). -/

namespace Sys2Proof.Laws

/-- A command is read back from its word. -/
def EncodingRoundTrip.Statement (i : Instr) : Prop :=
  i.wf = true → decodeWord (encode i) = .ok i

/-- `NOP` is read back from its word. -/
theorem EncodingRoundTrip.nop : EncodingRoundTrip.Statement .nop := fun _ => by decide

/-- `START_PULSE` is read back from its word. -/
theorem EncodingRoundTrip.startPulse : EncodingRoundTrip.Statement .startPulse := fun _ => by decide

/-- `READ_FRAME` is read back from its word. -/
theorem EncodingRoundTrip.readFrame : EncodingRoundTrip.Statement .readFrame := fun _ => by decide

/-- `ACQUIRE` is read back from its word. -/
theorem EncodingRoundTrip.acquire : EncodingRoundTrip.Statement .acquire := fun _ => by decide

/-- `BTN_ACK` is read back from its word. -/
theorem EncodingRoundTrip.btnAck : EncodingRoundTrip.Statement .btnAck := fun _ => by decide

end Sys2Proof.Laws
end

