-- ==== Sys2Proof/Laws/Sequencer.lean ====
section
/-! SUPPORT. What the decoder's shared operations can do, said once each. -/

namespace Sys2Proof.Machine

/-- A wait ends by the level, by the timeout, or counts on (40_decoder_commands.md R110). -/
theorem wait_cases (p : Params) (line lv : Bool) (e : DecodeError) (k : BitVec 15 → Dec) (d : Dec) :
    (line ≠ lv ∧ wait p line lv e k d = k d.cnt) ∨
    (line = lv ∧ p.timeoutTicks ≤ d.cnt.toNat ∧ wait p line lv e k d = raiseError e d) ∨
    (line = lv ∧ d.cnt.toNat < p.timeoutTicks ∧
      wait p line lv e k d = { d with cnt := d.cnt + 1 }) := by
  unfold wait
  split
  · exact .inl ⟨‹_›, rfl⟩
  · split
    · exact .inr (.inl ⟨by simpa using ‹¬ line ≠ lv›, ‹_›, rfl⟩)
    · exact .inr (.inr ⟨by simpa using ‹¬ line ≠ lv›, by omega, rfl⟩)

/-- A wait whose level has ended hands its length on. -/
theorem wait_ended {p : Params} {line lv : Bool} {e : DecodeError} {k : BitVec 15 → Dec} {d : Dec}
    (h : line ≠ lv) : wait p line lv e k d = k d.cnt := by
  simp [wait, h]

/-- A wait past its timeout raises its error. -/
theorem wait_timedOut {p : Params} {lv : Bool} {e : DecodeError} {k : BitVec 15 → Dec} {d : Dec}
    (h : p.timeoutTicks ≤ d.cnt.toNat) : wait p lv lv e k d = raiseError e d := by
  simp [wait, h]

/-- A wait within its timeout counts a sample. -/
theorem wait_counts {p : Params} {lv : Bool} {e : DecodeError} {k : BitVec 15 → Dec} {d : Dec}
    (h : d.cnt.toNat < p.timeoutTicks) :
    wait p lv lv e k d = { d with cnt := d.cnt + 1 } := by
  have : ¬ p.timeoutTicks ≤ d.cnt.toNat := by omega
  simp [wait, this]

/-- The frame's completion: the frame stands, or its mismatch is raised
(40_decoder_commands.md R116). -/
theorem completeFrame_cases (f : Frame) (d : Dec) :
    (frameOk f = true ∧ completeFrame f d =
      { phase := .idle, chain := false, cnt := 0, bitcnt := 0, shreg := f, valid := true,
        done := true, err := 0, doneEvt := true }) ∨
    (frameOk f = false ∧ completeFrame f d = raiseError .checksumMismatch d) := by
  cases h : frameOk f
  · exact .inr ⟨rfl, by simp [completeFrame, h]⟩
  · exact .inl ⟨rfl, by simp [completeFrame, h]⟩

/-- The end of a high pulse: the frame completes after bit 39, and the next separator begins after
any other bit (40_decoder_commands.md R115). -/
theorem bitReceived_cases (p : Params) (n : BitVec 15) (d : Dec) :
    (d.bitcnt = 39 ∧
      bitReceived p n d = completeFrame (shiftIn d.shreg (symbolBit p n)) d) ∨
    (d.bitcnt ≠ 39 ∧ bitReceived p n d =
      { d with
        shreg := shiftIn d.shreg (symbolBit p n), bitcnt := d.bitcnt + 1,
        phase := .bitLow, cnt := 1 }) := by
  unfold bitReceived
  split
  · exact .inl ⟨‹_›, rfl⟩
  · exact .inr ⟨‹_›, rfl⟩

/-- In `IDLE` a tick without a decoder command assigns `DONE_EVT` alone (40_decoder_commands.md R105). -/
theorem decStep_idle (p : Params) (line : Bool) (d : Dec) (h : d.phase = .idle) :
    decStep p line d = { d with doneEvt := false } := by
  simp [decStep, phaseTick, h]

/-- In `IDLE` a decoder command is accepted (40_decoder_commands.md R100). -/
theorem decCommandStep_idle (p : Params) (line : Bool) (q : Phase) (c : Bool) (d : Dec)
    (h : d.phase = .idle) : decCommandStep p line q c d = accept q c d := by
  simp [decCommandStep, h]

/-- In every other phase a decoder command is dropped (40_decoder_commands.md R100). -/
theorem decCommandStep_busy (p : Params) (line : Bool) (q : Phase) (c : Bool) (d : Dec)
    (h : d.phase ≠ .idle) : decCommandStep p line q c d = decStep p line d := by
  simp [decCommandStep, h]

/-- One bit shifted in, as a number: everything doubles and the new bit comes in below
(30_encoding.md R78). -/
theorem shiftIn_toNat (f : Frame) (b : Bool) :
    (shiftIn f b).toNat = (2 * f.toNat + b.toNat) % 2 ^ 40 := by
  have h := f.isLt
  have hb : (BitVec.ofBool b).toNat = b.toNat := by cases b <;> rfl
  have hl : b.toNat < 2 := Bool.toNat_lt b
  have e : (shiftIn f b).toNat = (f.extractLsb' 0 39).toNat <<< 1 ||| (BitVec.ofBool b).toNat :=
    BitVec.toNat_append _ _
  rw [e, hb, BitVec.extractLsb'_toNat, ← Nat.shiftLeft_add_eq_or_of_lt (by simpa using hl),
    Nat.shiftLeft_eq, Nat.shiftRight_zero]
  omega

end Sys2Proof.Machine
end

