-- ==== Sys2Proof/Laws/Step.lean ====
section
/-! SUPPORT. A whole tick as one update of the two sub-blocks, and runs of several ticks. -/

namespace Sys2Proof.Machine

/-- The decoder after the current tick, whatever the tick holds. -/
def tickDec (s : State) : Dec :=
  if (inputs s).rst then Dec.reset
  else
    match fetchCommand s with
    | some .startPulse => decCommand s .startLow false
    | some .readFrame => decCommand s .ackW0 false
    | some .acquire => decCommand s .startLow true
    | some .nop => decQuiet s
    | some .btnAck => decQuiet s
    | none => decQuiet s

/-- The button controller after the current tick, whatever the tick holds. -/
def tickDeb (s : State) : Deb :=
  if (inputs s).rst then Deb.reset
  else debStep s.cfg (inputs s).btnIn (decide (fetchCommand s = some .btnAck)) s.deb

/-- A step of a legal instance is one update of the two sub-blocks. -/
theorem step_eq_endTick {s : State} (h : s.cfg.Legal) :
    step s = .next (endTick s (tickDec s) (tickDeb s)) := by
  unfold step
  rw [if_pos h]
  cases hr : (inputs s).rst
  · cases hf : fetchCommand s with
    | none => simp [tickDec, tickDeb, hr, hf, quietTick, debQuiet]
    | some i =>
      cases i <;>
        simp [tickDec, tickDeb, hr, hf, exec, execNop, execStartPulse, execReadFrame, execAcquire,
          execBtnAck, debQuiet, debAck]
  · simp [tickDec, tickDeb, hr, resetTick]

/-- What a step that goes on can have done: the instance is legal, and the next state is the one
update. -/
theorem step_next_iff (s t : State) :
    step s = .next t ↔ s.cfg.Legal ∧ t = endTick s (tickDec s) (tickDeb s) := by
  constructor
  · intro h
    by_cases hl : s.cfg.Legal
    · rw [step_eq_endTick hl] at h
      exact ⟨hl, by injection h with h; exact h.symm⟩
    · simp only [step, if_neg hl] at h
      cases h
  · rintro ⟨hl, rfl⟩
    exact step_eq_endTick hl

/-- With no `rst`, a decoder that rests and gets no decoder command assigns `DONE_EVT` alone. -/
theorem tickDec_idle {s : State} (hr : (inputs s).rst = false) (hp : s.dec.phase = .idle)
    (hc : isDecoderCommand (fetchCommand s) = false) :
    tickDec s = { s.dec with doneEvt := false } := by
  have hq : decQuiet s = { s.dec with doneEvt := false } := decStep_idle _ _ _ hp
  unfold tickDec
  rw [hr, ← hq]
  cases hf : fetchCommand s with
  | none => rfl
  | some i => rw [hf] at hc; cases i <;> first | rfl | cases hc

/-- With no `rst`, a busy decoder takes its phase's step whatever the host does
(40_decoder_commands.md R100, R121). -/
theorem tickDec_busy {s : State} (hr : (inputs s).rst = false) (hp : s.dec.phase ≠ .idle) :
    tickDec s = decStep s.cfg (inputs s).lineIn s.dec := by
  unfold tickDec
  rw [hr]
  cases hf : fetchCommand s with
  | none => rfl
  | some i => cases i <;> simp [decCommand, decQuiet, decCommandStep_busy _ _ _ _ _ hp]

/-- No ticks change nothing. -/
@[simp] theorem runs_zero (s t : State) : Runs 0 s t ↔ s = t := by
  constructor
  · intro h
    injection h
  · rintro rfl
    rfl

/-- A run of `k + 1` ticks is a step and a run of `k` ticks. -/
theorem runs_succ (k : Nat) (s t : State) :
    Runs (k + 1) s t ↔ ∃ u, step s = .next u ∧ Runs k u t := by
  unfold Runs
  constructor
  · intro h
    cases hs : step s with
    | next u => exact ⟨u, rfl, by simpa [Host.Core.run, Sys2Proof.core, hs] using h⟩
    | fault r => cases r
    | refused r => simp [Host.Core.run, Sys2Proof.core, hs] at h
  · rintro ⟨u, hs, h⟩
    simpa [Host.Core.run, Sys2Proof.core, hs] using h

/-- For a legal instance a run of `k + 1` ticks is the one update and a run of `k` ticks. -/
theorem runs_succ_of_legal {k : Nat} {s t : State} (h : s.cfg.Legal) :
    Runs (k + 1) s t ↔ Runs k (endTick s (tickDec s) (tickDeb s)) t := by
  rw [runs_succ]
  simp [step_eq_endTick h]

/-- Runs add up. -/
theorem runs_add (j k : Nat) (s t u : State) (h₁ : Runs j s t) (h₂ : Runs k t u) :
    Runs (j + k) s u := by
  induction j generalizing s with
  | zero => rw [runs_zero] at h₁; subst h₁; simpa using h₂
  | succ j ih =>
    rw [runs_succ] at h₁
    obtain ⟨v, hv, h₁⟩ := h₁
    rw [show j + 1 + k = (j + k) + 1 by omega, runs_succ]
    exact ⟨v, hv, ih v h₁⟩

/-- A run keeps the parameters, and moves along the inputs. -/
theorem runs_frame (k : Nat) (s t : State) (h : Runs k s t) :
    t.cfg = s.cfg ∧ ∀ j, inputsAt t j = inputsAt s (k + j) := by
  induction k generalizing s with
  | zero => rw [runs_zero] at h; subst h; simp
  | succ k ih =>
    rw [runs_succ] at h
    obtain ⟨u, hu, h⟩ := h
    obtain ⟨_, rfl⟩ := (step_next_iff s u).mp hu
    obtain ⟨hc, hi⟩ := ih _ h
    refine ⟨hc, fun j => ?_⟩
    rw [hi j, inputsAt_endTick]
    congr 1
    omega

/-- A run ends in one state. -/
theorem runs_unique {k : Nat} {s t u : State} (h₁ : Runs k s t) (h₂ : Runs k s u) : t = u := by
  have h := h₁.symm.trans h₂
  injection h

/-- The state after `k` ticks of a legal instance. -/
def after : Nat → State → State
  | 0, s => s
  | k + 1, s => endTick (after k s) (tickDec (after k s)) (tickDeb (after k s))

/-- No step changes the parameters. -/
@[simp] theorem after_cfg (k : Nat) (s : State) : (after k s).cfg = s.cfg := by
  induction k with
  | zero => rfl
  | succ k ih => exact ih

/-- The inputs seen after `k` ticks are those that were `k` ticks ahead. -/
@[simp] theorem inputsAt_after (k : Nat) (s : State) (j : Nat) :
    inputsAt (after k s) j = inputsAt s (k + j) := by
  induction k generalizing j with
  | zero => rw [Nat.zero_add]; rfl
  | succ k ih =>
    rw [after, inputsAt_endTick, ih]
    congr 1
    omega

/-- The inputs sampled in the tick after `k` ticks. -/
theorem inputs_after (k : Nat) (s : State) : inputs (after k s) = inputsAt s k :=
  inputsAt_after k s 0

/-- A legal instance runs for any number of ticks, and that is where it gets. -/
theorem runs_iff_after (k : Nat) {s t : State} (h : s.cfg.Legal) :
    Runs k s t ↔ t = after k s := by
  have run : Runs k s (after k s) := by
    induction k with
    | zero => exact (runs_zero _ _).mpr rfl
    | succ k ih =>
      refine runs_add k 1 _ _ _ ih ((runs_succ 0 _ _).mpr ⟨_, step_eq_endTick ?_, ?_⟩)
      · rw [after_cfg]; exact h
      · exact (runs_zero _ _).mpr rfl
  exact ⟨fun h => runs_unique h run, fun e => e ▸ run⟩

/-- A run of at least one tick is a run of a legal instance. -/
theorem legal_of_runs {k : Nat} {s t : State} (h : Runs (k + 1) s t) : s.cfg.Legal := by
  obtain ⟨u, hu, _⟩ := (runs_succ k s t).mp h
  exact ((step_next_iff s u).mp hu).1

/-- A tick without `rst` that ends a decoder in `IDLE` never leaves a second completion pulse: a
decoder that rests has `DONE_EVT = 0` one tick later (40_decoder_commands.md R119). -/
theorem tickDec_doneEvt_of_idle {s : State} (h : s.dec.phase = .idle) :
    (tickDec s).doneEvt = false := by
  have hq : (decQuiet s).doneEvt = false := by rw [decQuiet, decStep_idle _ _ _ h]
  have hc : ∀ q c, (decCommand s q c).doneEvt = false := by
    intro q c
    rw [decCommand, decCommandStep_idle _ _ _ _ _ h, accept_doneEvt]
  unfold tickDec
  split
  · rfl
  · split <;> first | exact hq | exact hc _ _

end Sys2Proof.Machine
end

