-- ==== Sys2Proof/Tests/Slice0.lean ====
section
/-! SUPPORT. Tests with expected results from 95_test_vectors.md, the smoke test of the checks, and
for each obligation with hypotheses a state that meets them (`witness_<its name>`). -/

namespace Sys2Proof.Tests

open Sys2Proof.Machine

/-- The small instance of 95_test_vectors.md section 7. -/
def small : Params :=
  { startLowTicks := 3, startHighTicks := 2, timeoutTicks := 6, bitThresholdTicks := 2,
    debounceTicks := 4, variant := .simple }

/-- An instance with the shortest pulses that can carry both bit values. -/
def tiny : Params :=
  { startLowTicks := 1, startHighTicks := 1, timeoutTicks := 2, bitThresholdTicks := 1,
    debounceTicks := 1, variant := .extended }

/-- The inputs of a tick without `rst`. -/
def tick (line btn : Bool) (h : HostAccess := .none) : Inputs :=
  { rst := false, lineIn := line, btnIn := btn, host := h }

/-- The reset state of the small instance with placed inputs. -/
def start (env : List Inputs) : State := { State.resetWith small with env := env }

/-- The small instance in a phase. -/
def inPhase (p : Phase) (cnt : BitVec 15) (env : List Inputs) : State :=
  { start env with dec := { Dec.reset with phase := p, cnt := cnt } }

/-- The small instance in the high pulse of bit `n`, with `f` received so far. -/
def inBit (n : BitVec 6) (f : Frame) (cnt : BitVec 15) (env : List Inputs) : State :=
  { start env with
    dec := { Dec.reset with phase := .bitHigh, cnt := cnt, bitcnt := n, shreg := f } }

/-- The small instance armed after a high sample of the button. -/
def ready (env : List Inputs) : State :=
  { start env with deb := { Deb.reset with btnPrev := true } }

/-- The small instance in its debounce window, an activation pending. -/
def window (cnt : BitVec 19) (env : List Inputs) : State :=
  { start env with deb := { Deb.reset with state := .suppressed, cnt := cnt, pending := true } }

/-- The small instance at rest after a command. -/
def resting (f : Frame) (valid : Bool) (err : BitVec 3) (env : List Inputs) : State :=
  { start env with dec := { Dec.reset with shreg := f, valid := valid, done := true, err := err } }

/-- The decoder of a next state. -/
def decOf (o : Host.Outcome State Fault Refusal) : Option Dec :=
  match o with
  | .next t => some t.dec
  | .fault _ => none
  | .refused _ => none

/-- The button controller of a next state. -/
def debOf (o : Host.Outcome State Fault Refusal) : Option Deb :=
  match o with
  | .next t => some t.deb
  | .fault _ => none
  | .refused _ => none

/-! ### The checks refuse ill-formed terms -/

/-- A set bit of `ZERO` is refused (30_encoding.md R73). -/
theorem test_wf_zero_field : CmdFields.wf { zero := 1#29, op := 3#3 } = false := by decide

/-- A reserved operation code is refused (30_encoding.md R73). -/
theorem test_wf_reserved_op : CmdFields.wf { zero := 0#29, op := 5#3 } = false := by decide

/-- Every command passes its check. -/
theorem test_wf_instr : ∀ i : Instr, i.wf = true := by intro i; cases i <;> rfl

/-- Each bound of 00_scope.md R6 is checked, from both sides. -/
theorem test_params_refused :
    small.Legal ∧
    ([{ small with startLowTicks := 0 }, { small with startLowTicks := 32768 },
      { small with startHighTicks := 0 }, { small with startHighTicks := 32768 },
      { small with timeoutTicks := 0 }, { small with timeoutTicks := 32768 },
      { small with bitThresholdTicks := 0 }, { small with bitThresholdTicks := 6 },
      { small with debounceTicks := 0 }, { small with debounceTicks := 524288 }] : List Params).all
        (fun p => decide (¬ p.Legal)) = true := by
  decide

/-! ### Words, written out from 30_encoding.md R70 and R71 -/

/-- The word of `NOP`. -/
theorem test_decode_nop : decodeWord 0b00000000000000000000000000000000#32 = .ok .nop := by decide

/-- The word of `START_PULSE`. -/
theorem test_decode_start_pulse :
    decodeWord 0b00000000000000000000000000000001#32 = .ok .startPulse := by decide

/-- The word of `READ_FRAME`. -/
theorem test_decode_read_frame :
    decodeWord 0b00000000000000000000000000000010#32 = .ok .readFrame := by decide

/-- The word of `ACQUIRE`. -/
theorem test_decode_acquire :
    decodeWord 0b00000000000000000000000000000011#32 = .ok .acquire := by decide

/-- The word of `BTN_ACK`. -/
theorem test_decode_btn_ack :
    decodeWord 0b00000000000000000000000000000100#32 = .ok .btnAck := by decide

/-- The illegal words and the dropped writes of 95_test_vectors.md section 6. -/
theorem test_decode_refuses :
    decodeWord 0x5#32 = .error (.reservedOp 5#3) ∧ decodeWord 0x6#32 = .error (.reservedOp 6#3) ∧
    decodeWord 0x7#32 = .error (.reservedOp 7#3) ∧
    decodeWord 0x8#32 = .error (.zeroFieldNotZero 1#29) ∧
    decodeWord 0xB#32 = .error (.zeroFieldNotZero 1#29) ∧
    decodeWord 0x80000003#32 = .error (.zeroFieldNotZero 0x10000000#29) ∧
    decodeAccess (.write 1#3 0x3#32) = none ∧ decodeAccess (.write 6#3 0x4#32) = none := by decide

/-- The encoder writes the words of 30_encoding.md R71. -/
theorem test_encode :
    encode .nop = 0x0#32 ∧ encode .startPulse = 0x1#32 ∧ encode .readFrame = 0x2#32 ∧
    encode .acquire = 0x3#32 ∧ encode .btnAck = 0x4#32 := by decide

/-- The rows of the opcode table through the decoder. -/
theorem test_decode_table :
    decodeTableWord 32 0 = some .nop ∧ decodeTableWord 32 1 = some .startPulse ∧
    decodeTableWord 32 2 = some .readFrame ∧ decodeTableWord 32 3 = some .acquire ∧
    decodeTableWord 32 4 = some .btnAck ∧ decodeTableWord 32 5 = none := by decide

/-- A placed word is the command of the very next tick after reset (log 4). -/
theorem test_placed_word_runs :
    step (State.reset.withFetchWord 32 3) = exec .acquire (State.reset.withFetchWord 32 3) := rfl

/-! ### One step of each command -/

/-- `NOP` while busy: the phase goes on (40_decoder_commands.md R101; trace B, tick 11). -/
theorem test_nop_while_busy :
    (decOf (exec .nop (inPhase .ackW0 5 [tick true true]))).map (fun d => (d.phase, d.cnt)) =
      some (.ackW0, 6) := by decide

/-- `START_PULSE` in `IDLE` forgets the last result (40_decoder_commands.md R100, R102). -/
theorem test_start_pulse_accepted :
    decOf (exec .startPulse (resting 0x370016004D true 0 [tick true true])) =
      some { Dec.reset with phase := .startLow } := by decide

/-- `READ_FRAME` in `IDLE` does not look at the line in its own tick (95_test_vectors.md V11b). -/
theorem test_read_frame_accepted :
    decOf (exec .readFrame (start [tick false true])) =
      some { Dec.reset with phase := .ackW0 } := by decide

/-- `READ_FRAME` in the tick in which the last command completes is dropped
(70_reset_and_hazards.md R220). -/
theorem test_read_frame_dropped :
    (decOf (exec .readFrame (inPhase .startHigh 1 [tick true true]))).map
      (fun d => (d.phase, d.done, d.doneEvt)) = some (.idle, true, true) := by decide

/-- `ACQUIRE`, trace A, tick 0. -/
theorem test_acquire_accepted :
    decOf (exec .acquire (start [tick true true])) =
      some { Dec.reset with phase := .startLow, chain := true } := by decide

/-- `BTN_ACK`, trace C, tick 7. -/
theorem test_btn_ack_in_window :
    (debOf (exec .btnAck (window 2 [tick true false]))).map (fun b => (b.pending, b.cnt)) =
      some (false, 1) := by decide

/-- `BTN_ACK` in the tick of an activation (95_test_vectors.md B7). -/
theorem test_btn_ack_loses :
    (debOf (exec .btnAck (ready [tick true false]))).map (fun b => (b.pending, b.cnt)) =
      some (true, 4) := by decide

/-! ### One tick without a command: rows of the traces of 95_test_vectors.md section 7 -/

/-- Trace A, tick 7: the idle level ends with length 1. -/
theorem test_trace_a_tick_7 :
    (decOf (step (inPhase .ackW0 1 [tick false true]))).map (fun d => (d.phase, d.cnt)) =
      some (.ackW1, 1) := by decide

/-- Trace A, ticks 14 and 19: a high pulse of 1 tick is a 0, one of 3 ticks a 1. -/
theorem test_trace_a_bits :
    (decOf (step (inBit 0 0 1 [tick false true]))).map (fun d => (d.phase, d.bitcnt, d.shreg)) =
      some (.bitLow, 1, 0) ∧
    (decOf (step (inBit 1 0 3 [tick false true]))).map (fun d => (d.phase, d.bitcnt, d.shreg)) =
      some (.bitLow, 2, 1) := by decide

/-- Trace A, tick 25: the seventh low sample of a separator is `LowPulseTimeout`. -/
theorem test_trace_a_tick_25 :
    decOf (step (inPhase .bitLow 6 [tick false true])) =
      some { Dec.reset with done := true, doneEvt := true, err := 2 } := by decide

/-- Trace B, tick 12: the seventh high sample is `NoResponse`. -/
theorem test_trace_b_tick_12 :
    decOf (step (inPhase .ackW0 6 [tick true true])) =
      some { Dec.reset with done := true, doneEvt := true, err := 1 } := by decide

/-- Trace C, ticks 4 and 8: an edge activates; the timer expires at 1. -/
theorem test_trace_c :
    debOf (step (ready [tick true false])) =
      some { state := .suppressed, cnt := 4, btnPrev := false, pending := true, actEvt := true } ∧
    debOf (step (window 1 [tick true true])) =
      some { state := .armed, cnt := 0, btnPrev := true, pending := true, actEvt := false } := by
  decide

/-- Bit 39 of `37 00 16 00 4D` completes the frame; of `37 00 16 00 4C` it is a mismatch
(95_test_vectors.md V1, F2). -/
theorem test_last_bit :
    decOf (step (inBit 39 0x1B800B0026#40 3 [tick false true])) =
      some { Dec.reset with shreg := 0x370016004D, valid := true, done := true, doneEvt := true } ∧
    decOf (step (inBit 39 0x1B800B0026#40 1 [tick false true])) =
      some { Dec.reset with done := true, doneEvt := true, err := 4 } := by decide

/-! ### The functions: 95_test_vectors.md section 4 -/

/-- Vectors K1 to K7. -/
theorem test_checksum :
    checksum 0x00 0x00 0x00 0x00 = 0x00 ∧ checksum 0x37 0x00 0x16 0x00 = 0x4D ∧
    checksum 0x02 0x8C 0x80 0x96 = 0xA4 ∧ checksum 0xFF 0xFF 0xFF 0xFF = 0xFC ∧
    checksum 0x80 0x80 0x00 0x00 = 0x00 ∧ checksum 0xA5 0x5A 0x0F 0xF0 = 0xFE ∧
    checksum 0xFF 0x01 0x00 0x00 = 0x00 := by decide

/-- Vectors T1, T2 and T3 to T9. -/
theorem test_payload :
    (hum .simple 0x6409800700 = 0x64 ∧ temp32 .simple 0x6409800700 = 0x80) ∧
    (hum .extended 0x028C009600 = 0x28C ∧ temp32 .extended 0x028C009600 = 0x96) ∧
    (hum .extended 0x028C809600 = 0x28C ∧ temp32 .extended 0x028C809600 = 0xFFFFFF6A) ∧
    temp32 .extended 0x0000800000 = 0 ∧ temp32 .extended 0x03E87FFF00 = 0x7FFF ∧
    (hum .extended 0xFFFFFFFF00 = 0xFFFF ∧ temp32 .extended 0xFFFFFFFF00 = 0xFFFF8001) ∧
    temp32 .extended 0x0001800100 = 0xFFFFFFFF ∧
    (hum .extended 0x0100010000 = 0x100 ∧ temp32 .extended 0x0100010000 = 0x100) := by decide

/-! ### Witnesses: for each obligation with hypotheses, states and operands that meet them -/

/-- The end of a run of a legal instance. -/
theorem runs_after (k : Nat) {s : State} (h : s.cfg.Legal) : Runs k s (after k s) :=
  (runs_iff_after k h).mpr rfl

/-- The shortest and the longest parameters, and the defaults, are legal. -/
theorem witness_LegalInstanceNeverStops :
    State.reset.cfg.Legal ∧ (State.resetWith tiny).cfg.Legal ∧
    (State.resetWith { startLowTicks := 32767, startHighTicks := 32767, timeoutTicks := 32767,
                       bitThresholdTicks := 32766, debounceTicks := 524287,
                       variant := .extended }).cfg.Legal := by decide

/-- A reset tick, a tick with a command and one without. -/
theorem witness_StepRunsTheDecodedCommand :
    (inputs (start [{ tick true true with rst := true }])).rst = true ∧
    ((inputs (start [tick true true (.write 0#3 4#32)])).rst = false ∧
      (inputs (start [tick true true (.write 0#3 4#32)])).host = .write 0#3 4#32 ∧
      decodeWord 4#32 = .ok .btnAck ∧ Instr.btnAck.wf = true) ∧
    decodeAccess (inputs (start [tick true true (.write 0#3 5#32)])).host = none := by decide

/-- The last legal word, the first illegal one, the last word, and the registers 1 and 7. -/
theorem witness_CommandDecodeIsTheSpecsCaseList :
    ((4#32).toNat / 8 = 0 ∧ (4#32).toNat % 8 ≤ 4) ∧
    ¬ ((5#32).toNat / 8 = 0 ∧ (5#32).toNat % 8 ≤ 4) ∧
    ¬ ((8#32).toNat / 8 = 0 ∧ (8#32).toNat % 8 ≤ 4) ∧
    ¬ ((0xFFFFFFFF#32).toNat / 8 = 0 ∧ (0xFFFFFFFF#32).toNat % 8 ≤ 4) ∧
    1#3 ≠ 0#3 ∧ 7#3 ≠ 0#3 := by decide

/-- A word on each side of the equivalence. -/
theorem witness_DecodeAndEncodeAgree :
    Instr.acquire.wf = true ∧ decodeWord 3#32 = .ok .acquire ∧ 3#32 = encode .acquire ∧
    decodeWord 0x80000003#32 ≠ .ok .acquire := by decide

/-- The first and the last dropped word; the first and the last dropped register. -/
theorem witness_DroppedWritesAreNoAccess :
    4 < (5#32).toNat ∧ 4 < (0xFFFFFFFF#32).toNat ∧ 1#3 ≠ 0#3 ∧ 7#3 ≠ 0#3 := by decide

/-- Registers beside `STATUS`. -/
theorem witness_RegistersAndOutputsAfterReset : 0#3 ≠ 1#3 ∧ 2#3 ≠ 1#3 ∧ 7#3 ≠ 1#3 := by decide

/-- A reset tick in the middle of a command, with a read. -/
theorem witness_ResetTickResetsEveryElement :
    (inBit 39 5 3 [{ tick true true (.read 1#3) with rst := true }]).cfg.Legal ∧
    (inputs (inBit 39 5 3 [{ tick true true (.read 1#3) with rst := true }])).rst = true ∧
    (inputs (inBit 39 5 3 [{ tick true true (.read 1#3) with rst := true }])).host =
      .read 1#3 := by decide

/-- A tick with a read. -/
theorem witness_ReadValuesOfAllRegisters :
    (inputs (start [tick true true (.read 7#3)])).host = .read 7#3 := by decide

/-- Two states that differ in the inputs alone. -/
theorem witness_ReadsHaveNoSideEffect :
    (start [tick true true]).dec = (start []).dec ∧ (start [tick true true]).deb = (start []).deb ∧
    (start [tick true true]).cfg = (start []).cfg := by decide

/-- Reserved bits at both ends, and dropped registers. -/
theorem witness_ReservedRegistersReadZeroAndDropWrites :
    8 ≤ 8 ∧ 8 ≤ 31 ∧ 2 ≤ 2 ∧ 2 ≤ 31 ∧ 1#3 ≠ 0#3 ∧ 7#3 ≠ 0#3 := by decide

/-- A tick with a read and a tick without. -/
theorem witness_OutputsAreFunctionsOfTheStartState :
    (inputs (start [tick true true (.read 1#3)])).host = .read 1#3 ∧
    ∀ r : RegNum, (inputs (start [tick true true])).host ≠ .read r := by decide

/-- States with an error, with a valid frame and in the middle of a command meet the invariants. -/
theorem witness_StatusReadsOneOfEightValues :
    Invariants (resting 0 false 4 []) ∧ Invariants (resting 0x370016004D true 0 []) ∧
    Invariants (inBit 39 5 6 []) ∧ Invariants (window 4 []) :=
  ⟨by decide, by decide, by decide, by decide⟩

/-- A decoder that rests and one that is busy. -/
theorem witness_DecoderCommandsAreAcceptedInIdleOnly :
    (start []).dec.phase = .idle ∧ (inPhase .bitHigh 1 []).dec.phase ≠ .idle := by decide

/-- A tick with `BTN_ACK`. -/
theorem witness_BtnAckChangesPendingAlone :
    (window 2 [tick true true (.write 0#3 4#32)]).cfg.Legal ∧
    (inputs (window 2 [tick true true (.write 0#3 4#32)])).rst = false ∧
    (inputs (window 2 [tick true true (.write 0#3 4#32)])).host = .write 0#3 4#32 := by decide

/-- An armed input with an edge, and one without. -/
theorem witness_ActivationWinsOverAcknowledge :
    ((ready [tick true false]).deb.state = .armed ∧ (ready [tick true false]).deb.btnPrev = true ∧
      (inputs (ready [tick true false])).btnIn = false) ∧
    ¬ ((window 2 [tick true false]).deb.state = .armed ∧
      (window 2 [tick true false]).deb.btnPrev = true ∧
      (inputs (window 2 [tick true false])).btnIn = false) := by decide

/-- `IDLE` ticks without and with a decoder command. -/
theorem witness_IdleTickHoldsTheResult :
    ((start [tick true true]).cfg.Legal ∧ (inputs (start [tick true true])).rst = false ∧
      (start [tick true true]).dec.phase = .idle ∧
      isDecoderCommand (decodeAccess (inputs (start [tick true true])).host) = false) ∧
    ((start [tick true true (.write 0#3 3#32)]).cfg.Legal ∧
      (inputs (start [tick true true (.write 0#3 3#32)])).rst = false ∧
      (start [tick true true (.write 0#3 3#32)]).dec.phase = .idle ∧
      decodeAccess (inputs (start [tick true true (.write 0#3 3#32)])).host = some .acquire) ∧
    isDecoderCommand (some .acquire) = true := by decide

/-- A step in the last bit. -/
theorem witness_PhaseTransitionsAreTheTables :
    (inputs (inBit 39 5 3 [tick false true])).rst = false ∧
    (inBit 39 5 3 [tick false true]).dec.bitcnt.toNat ≤ 39 ∧
    ∃ t, step (inBit 39 5 3 [tick false true]) = .next t :=
  ⟨by decide, by decide, _, step_eq_endTick (by decide)⟩

/-- What the three clauses of the wait statements ask of the inputs and the counter, for a phase and
the level it waits out: the other level, the last count that goes on, the first that times out. -/
abbrev WaitWitness (p : Phase) (lv : Bool) : Prop :=
  (∀ l c, (inPhase p c [tick l true]).cfg.Legal ∧ (inputs (inPhase p c [tick l true])).rst = false ∧
    (inPhase p c [tick l true]).dec.phase = p) ∧
  (inputs (inPhase p 1 [tick (!lv) true])).lineIn = !lv ∧
  ((inputs (inPhase p 5 [tick lv true])).lineIn = lv ∧
    (inPhase p 5 [tick lv true]).dec.cnt.toNat < small.timeoutTicks) ∧
  ((inputs (inPhase p 6 [tick lv true])).lineIn = lv ∧
    small.timeoutTicks ≤ (inPhase p 6 [tick lv true]).dec.cnt.toNat)

/-- Every phase and level meets the hypotheses of its wait statement. -/
theorem wait_witness (p : Phase) (lv : Bool) : WaitWitness p lv :=
  ⟨fun _ _ => ⟨show small.Legal by decide, rfl, rfl⟩, rfl, ⟨rfl, show 5 < 6 by decide⟩,
    ⟨rfl, show 6 ≤ 6 by decide⟩⟩

/-- `ACK_W1`, all three clauses. -/
theorem witness_AckW1WaitsOutTheLowPulse : WaitWitness .ackW1 false := wait_witness _ _

/-- `ACK_W0`, all three clauses. -/
theorem witness_AckW0WaitsForTheLowPulse : WaitWitness .ackW0 true := wait_witness _ _

/-- `ACK_W2`, all three clauses. -/
theorem witness_AckW2WaitsOutTheHighPulse : WaitWitness .ackW2 true := wait_witness _ _

/-- `BIT_LOW`, all three clauses. -/
theorem witness_BitLowWaitsOutTheSeparator : WaitWitness .bitLow false := wait_witness _ _

/-- The last bit that goes on to another; the last count that goes on and the first that times out. -/
theorem witness_HighPulseEndShiftsTheBitIn :
    WaitWitness .bitHigh true ∧
    (inBit 38 5 3 [tick false true]).cfg.Legal ∧
    (inputs (inBit 38 5 3 [tick false true])).rst = false ∧
    (inBit 38 5 3 [tick false true]).dec.phase = .bitHigh ∧
    (inputs (inBit 38 5 3 [tick false true])).lineIn = false ∧
    (inBit 38 5 3 [tick false true]).dec.bitcnt.toNat < 39 :=
  ⟨wait_witness _ _, by decide⟩

/-- The last bit of a frame that passes and of one that does not. -/
theorem witness_FrameCompletionChecksTheFrame :
    ((inBit 39 0x1B800B0026#40 3 [tick false true]).cfg.Legal ∧
      (inputs (inBit 39 0x1B800B0026#40 3 [tick false true])).rst = false ∧
      (inBit 39 0x1B800B0026#40 3 [tick false true]).dec.phase = .bitHigh ∧
      (inputs (inBit 39 0x1B800B0026#40 3 [tick false true])).lineIn = false ∧
      (inBit 39 0x1B800B0026#40 3 [tick false true]).dec.bitcnt = 39) ∧
    (0x370016004D#40 = BitVec.ofNat 40 (2 * (0x1B800B0026#40).toNat + (if 2 < 3 then 1 else 0)) ∧
      checksum (byte0 0x370016004D) (byte1 0x370016004D) (byte2 0x370016004D)
        (byte3 0x370016004D) = byte4 0x370016004D) ∧
    (0x370016004C#40 = BitVec.ofNat 40 (2 * (0x1B800B0026#40).toNat + (if 2 < 2 then 1 else 0)) ∧
      checksum (byte0 0x370016004C) (byte1 0x370016004C) (byte2 0x370016004C)
        (byte3 0x370016004C) ≠ byte4 0x370016004C) := by decide

/-- A timeout with each of the three codes, and a wrong checksum. -/
theorem witness_ErrorCompletionDiscardsTheFrame :
    ((inPhase .ackW1 6 [tick false true]).cfg.Legal ∧
      (inputs (inPhase .ackW1 6 [tick false true])).rst = false ∧
      awaitedLevel (inPhase .ackW1 6 [tick false true]).dec.phase =
        some (inputs (inPhase .ackW1 6 [tick false true])).lineIn ∧
      6 ≤ (inPhase .ackW1 6 [tick false true]).dec.cnt.toNat) ∧
    awaitedLevel .bitLow = some (inputs (inPhase .bitLow 6 [tick false true])).lineIn ∧
    awaitedLevel .bitHigh = some (inputs (inPhase .bitHigh 6 [tick true true])).lineIn ∧
    ((inBit 39 0x1B800B0026#40 1 [tick false true]).cfg.Legal ∧
      (inputs (inBit 39 0x1B800B0026#40 1 [tick false true])).rst = false ∧
      (inputs (inBit 39 0x1B800B0026#40 1 [tick false true])).lineIn = false ∧
      frameOk (shiftIn 0x1B800B0026#40 (symbolBit small 1)) = false) := by decide

/-- A step that completes, with the step after it. -/
theorem witness_DonePulseMarksEachCompletion :
    ∃ t u, step (inPhase .ackW0 6 [tick true true, tick true true]) = .next t ∧
      t.dec.doneEvt = true ∧ step t = .next u :=
  ⟨_, _, step_eq_endTick (by decide), by decide, step_eq_endTick (by decide)⟩

/-- The small instance armed with an activation still pending. -/
def pendingArmed (env : List Inputs) : State :=
  { start env with deb := { Deb.reset with btnPrev := true, pending := true } }

/-- A step that activates, one that leaves the input armed, and one in `Armed` with an activation
still pending and no acknowledge. -/
theorem witness_ActivationIsAFallingEdgeWhileArmed :
    (∃ t, step (ready [tick true false]) = .next t ∧ t.deb.actEvt = true ∧ t.deb.pending = true) ∧
    (∃ t, step (ready [tick true true]) = .next t ∧
      (inputs (ready [tick true true])).rst = false ∧ (ready [tick true true]).deb.state = .armed ∧
      t.deb.actEvt = false) ∧
    ∃ t, step (pendingArmed [tick true true]) = .next t ∧
      (inputs (pendingArmed [tick true true])).rst = false ∧
      decodeAccess (inputs (pendingArmed [tick true true])).host ≠ some .btnAck ∧
      (pendingArmed [tick true true]).deb.state = .armed ∧
      (pendingArmed [tick true true]).deb.pending = true :=
  ⟨⟨_, step_eq_endTick (by decide), by decide⟩, ⟨_, step_eq_endTick (by decide), by decide⟩,
    ⟨_, step_eq_endTick (by decide), by decide⟩⟩

/-- A tick with an edge and a tick without. -/
theorem witness_EdgeDetectorRemembersTheLastSample :
    (∀ b, (ready [tick true b]).cfg.Legal ∧ (inputs (ready [tick true b])).rst = false ∧
      (ready [tick true b]).deb.state = .armed ∧ (ready [tick true b]).deb.btnPrev = true) ∧
    (inputs (ready [tick true false])).btnIn = false ∧
    ¬ ((ready [tick true true]).deb.btnPrev = true ∧
      (inputs (ready [tick true true])).btnIn = false) := by decide

/-- The last count, the one before it, and a tick without an acknowledge. -/
theorem witness_SuppressedInputOnlyCountsDown :
    ((window 1 [tick true false]).cfg.Legal ∧ (inputs (window 1 [tick true false])).rst = false ∧
      (window 1 [tick true false]).deb.state = .suppressed ∧
      (window 1 [tick true false]).deb.cnt.toNat ≤ 1) ∧
    2 ≤ (window 2 [tick true false]).deb.cnt.toNat ∧
    decodeAccess (inputs (window 1 [tick true false])).host ≠ some .btnAck := by decide

/-- Forty bits, and the first and last of them. -/
theorem witness_ReceivedBitsLandMostSignificantFirst :
    (List.replicate 40 true).length = 40 ∧ 0 < 40 ∧ 39 < 40 := by decide

/-- A frame that passes, and its first and last bits. -/
theorem witness_EverySingleBitFlipIsDetected :
    frameOk 0x370016004D#40 = true ∧ 0 < 40 ∧ 39 < 40 := by decide

/-- The whole of `START_LOW`, with its first and last tick, and a tick at the last count. -/
theorem witness_StartLowLastsItsTicks :
    let s := inPhase .startLow 0 (List.replicate 3 (tick false true))
    s.cfg.Legal ∧ s.dec.phase = .startLow ∧ s.dec.cnt = 0 ∧ NoReset s s.cfg.startLowTicks ∧
      0 < s.cfg.startLowTicks ∧ 2 < s.cfg.startLowTicks ∧ (inputs s).rst = false := by decide

/-- The whole of `START_HIGH`, in an `ACQUIRE` and in a `START_PULSE`. -/
theorem witness_StartHighLastsItsTicks :
    let s := inPhase .startHigh 0 (List.replicate 2 (tick false true))
    s.cfg.Legal ∧ s.dec.phase = .startHigh ∧ s.dec.cnt = 0 ∧ NoReset s s.cfg.startHighTicks ∧
      s.dec.chain = false ∧ ({ s with dec := { s.dec with chain := true } } : State).dec.chain = true ∧
      1 < s.cfg.startHighTicks ∧ (inputs s).rst = false := by decide

/-- A `START_PULSE` of the small instance. -/
theorem witness_StartPulseDrivesTheWakePulse :
    let s := start (tick true true (.write 0#3 1#32) :: List.replicate 5 (tick true true))
    s.cfg.Legal ∧ s.dec.phase = .idle ∧ decodeAccess (inputs s).host = some .startPulse ∧
      NoReset s (s.cfg.startLowTicks + s.cfg.startHighTicks + 1) ∧
      (1 ≤ 3 ∧ 3 ≤ s.cfg.startLowTicks) ∧
      (s.cfg.startLowTicks < 4 ∧ 5 ≤ s.cfg.startLowTicks + s.cfg.startHighTicks) := by decide

/-- An `ACQUIRE` of the small instance. -/
theorem witness_AcquireReadsRightAfterTheWakePulse :
    let s := start (tick true true (.write 0#3 3#32) :: List.replicate 5 (tick true true))
    s.cfg.Legal ∧ s.dec.phase = .idle ∧ decodeAccess (inputs s).host = some .acquire ∧
      NoReset s (s.cfg.startLowTicks + s.cfg.startHighTicks + 1) ∧
      (1 ≤ 3 ∧ 3 ≤ s.cfg.startLowTicks) ∧
      (s.cfg.startLowTicks < 4 ∧ 5 ≤ s.cfg.startLowTicks + s.cfg.startHighTicks) := by decide

/-- The hypotheses of the stuck line at a state and a level. -/
abbrev StuckWitness (s : State) (lv : Bool) : Prop :=
  s.cfg.Legal ∧ awaitedLevel s.dec.phase = some lv ∧ s.dec.cnt.toNat ≤ s.cfg.timeoutTicks ∧
    NoReset s (s.cfg.timeoutTicks + 1 - s.dec.cnt.toNat) ∧
    ∀ j, j < s.cfg.timeoutTicks + 1 - s.dec.cnt.toNat → (inputsAt s j).lineIn = lv

/-- A line stuck high in `ACK_W0` from the first sample, stuck low in `BIT_LOW` from the second, and at
the last count in `BIT_HIGH`. -/
theorem witness_StuckLineRaisesTheWaitsError :
    StuckWitness (inPhase .ackW0 0 (List.replicate 7 (tick true true))) true ∧
    StuckWitness (inPhase .bitLow 1 (List.replicate 6 (tick false true))) false ∧
    StuckWitness (inPhase .bitHigh 6 [tick true true]) true := by decide

/-- A pulse of the longest length that passes. -/
theorem witness_HighPulseLengthIsTheBit :
    let s := inBit 38 5 1 (List.replicate 5 (tick true true) ++ [tick false true])
    s.cfg.Legal ∧ s.dec.phase = .bitHigh ∧ s.dec.bitcnt.toNat < 39 ∧
      s.dec.cnt.toNat + 5 ≤ s.cfg.timeoutTicks ∧ NoReset s (5 + 1) ∧
      (∀ j, j < 5 → (inputsAt s j).lineIn = true) ∧ (inputsAt s 5).lineIn = false := by decide

/-- A transaction of the tiny instance: `READ_FRAME`, then the samples of `wave`. -/
def readWave (wave : List Bool) : State :=
  { State.resetWith tiny with
    env := tick true true (.write 0#3 2#32) :: wave.map (fun l => tick l true) }

/-- The hypotheses of the whole transaction, for pulses of the tiny instance. -/
abbrev WaveWitness (idle ackl ackh : Nat) (bits : List (Nat × Nat)) (f : Frame) : Prop :=
  let s := readWave (frameWave idle ackl ackh bits)
  s.cfg.Legal ∧ s.dec.phase = .idle ∧ decodeAccess (inputs s).host = some .readFrame ∧
    idle ≤ s.cfg.timeoutTicks ∧ 1 ≤ ackl ∧ ackl ≤ s.cfg.timeoutTicks ∧ 1 ≤ ackh ∧
    ackh ≤ s.cfg.timeoutTicks ∧ bits.length = 40 ∧
    (∀ b ∈ bits, 1 ≤ b.1 ∧ b.1 ≤ s.cfg.timeoutTicks ∧ 1 ≤ b.2 ∧ b.2 ≤ s.cfg.timeoutTicks) ∧
    NoReset s ((frameWave idle ackl ackh bits).length + 1) ∧
    (∀ j, j < (frameWave idle ackl ackh bits).length →
      (inputsAt s (j + 1)).lineIn = (frameWave idle ackl ackh bits).getD j false) ∧
    f.toNat = wavePayload s.cfg bits

/-- The shortest transaction, whose frame passes, and one with a long last bit, whose frame does
not. -/
theorem witness_ReadFrameDecodesTheWaveform :
    (WaveWitness 0 1 1 (List.replicate 40 (1, 1)) 0 ∧ frameOk 0 = true) ∧
    (WaveWitness 2 2 2 (List.replicate 39 (2, 1) ++ [(1, 2)]) 1 ∧ frameOk 1 = false) := by
  decide +kernel

/-- The tiny instance with the word `w` written to `CMD` and the line high for long enough. -/
def command (w : Word) : State :=
  { State.resetWith tiny with
    env := tick true true (.write 0#3 w) :: List.replicate 260 (tick true true) }

/-- The hypotheses of the completion statement for a command of the tiny instance. -/
abbrev CompletionWitness (w : Word) (i : Instr) : Prop :=
  (command w).cfg.Legal ∧ (command w).dec.phase = .idle ∧
    decodeAccess (inputs (command w)).host = some i ∧ isDecoderCommand (some i) = true ∧
    NoReset (command w) (completionBound (command w).cfg i)

/-- Each of the three decoder commands. -/
theorem witness_EveryDecoderCommandCompletes :
    CompletionWitness 1 .startPulse ∧ CompletionWitness 2 .readFrame ∧
    CompletionWitness 3 .acquire := by
  decide +kernel

/-- A valid frame, and two ticks with a read and a write of a register that is not `CMD`. -/
theorem witness_ResultStaysUntilTheNextCommand :
    let s := resting 0x370016004D true 0 [tick true true (.read 1#3), tick true true (.write 2#3 3#32)]
    s.dec.phase = .idle ∧ NoReset s 2 ∧ NoDecoderCommand s 2 ∧ Runs 2 s (after 2 s) :=
  ⟨by decide, by decide, by decide, runs_after 2 (by decide)⟩

/-- Two runs of two ticks of a busy decoder; in one the host writes `ACQUIRE` twice. -/
theorem witness_HostCannotDisturbABusyDecoder :
    let s := inPhase .ackW0 1 [tick true true, tick false true]
    let s' := inPhase .ackW0 1
      [tick true true (.write 0#3 3#32), tick false true (.write 0#3 3#32)]
    s'.cfg = s.cfg ∧ s'.dec = s.dec ∧
      (∀ j, j < 2 → (inputsAt s' j).rst = (inputsAt s j).rst ∧
        (inputsAt s' j).lineIn = (inputsAt s j).lineIn) ∧
      (∀ j u, j < 2 → Runs j s u → u.dec.phase ≠ .idle) ∧
      Runs 2 s (after 2 s) ∧ Runs 2 s' (after 2 s') := by
  refine ⟨by decide, by decide, by decide, fun j u hj hu => ?_, runs_after 2 (by decide),
    runs_after 2 (by decide)⟩
  rw [(runs_iff_after j (by decide)).mp hu]
  clear hu
  revert j
  decide

/-- Two runs whose buttons differ. -/
theorem witness_DecoderIgnoresTheButton :
    let s := inPhase .ackW0 1 [tick true true, tick false true]
    let s' := { ready [tick true false, tick false true] with dec := s.dec }
    s'.cfg = s.cfg ∧ s'.dec = s.dec ∧
      (∀ j, j < 2 → (inputsAt s' j).rst = (inputsAt s j).rst ∧
        (inputsAt s' j).lineIn = (inputsAt s j).lineIn ∧
        (inputsAt s' j).host = (inputsAt s j).host) ∧
      Runs 2 s (after 2 s) ∧ Runs 2 s' (after 2 s') :=
  ⟨by decide, by decide, by decide, runs_after 2 (by decide), runs_after 2 (by decide)⟩

/-- Two runs whose lines and decoder commands differ, with an acknowledge in the same tick. -/
theorem witness_ButtonIgnoresTheDecoder :
    let s := ready [tick true false, tick true true (.write 0#3 4#32)]
    let s' := { ready [tick false false (.write 0#3 3#32), tick false true (.write 0#3 4#32)] with
      dec := { Dec.reset with phase := .bitLow, cnt := 1 } }
    s'.cfg = s.cfg ∧ s'.deb = s.deb ∧
      (∀ j, j < 2 → (inputsAt s' j).rst = (inputsAt s j).rst ∧
        (inputsAt s' j).btnIn = (inputsAt s j).btnIn ∧
        (decodeAccess (inputsAt s' j).host = some .btnAck ↔
          decodeAccess (inputsAt s j).host = some .btnAck)) ∧
      Runs 2 s (after 2 s) ∧ Runs 2 s' (after 2 s') :=
  ⟨by decide, by decide, by decide, runs_after 2 (by decide), runs_after 2 (by decide)⟩

/-- An edge, and the first and last tick of its window. -/
theorem witness_DebounceWindowTickByTick :
    let s := ready (tick true false :: List.replicate 4 (tick true true))
    s.cfg.Legal ∧ s.deb.state = .armed ∧ s.deb.btnPrev = true ∧ (inputs s).btnIn = false ∧
      NoReset s (s.cfg.debounceTicks + 1) ∧ 1 ≤ s.cfg.debounceTicks := by decide

/-- Two activations at the smallest distance: 5 ticks on the small instance (trace C, ticks 5
and 10). -/
theorem witness_ActivationsAreSpacedByTheWindow :
    let s := ready (tick true false :: List.replicate 4 (tick true true) ++ [tick true false])
    1 ≤ 1 ∧ 1 < 6 ∧ NoReset s 6 ∧ Runs 1 s (after 1 s) ∧ (after 1 s).deb.actEvt = true ∧
      Runs 6 s (after 6 s) ∧ (after 6 s).deb.actEvt = true :=
  ⟨by decide, by decide, by decide, runs_after 1 (by decide), by decide, runs_after 6 (by decide),
    by decide⟩

/-- A state in the last bit meets the invariants and steps. -/
theorem witness_EveryTickKeepsTheInvariants :
    Invariants (inBit 39 5 3 [tick false true]) ∧
    ∃ t, step (inBit 39 5 3 [tick false true]) = .next t :=
  ⟨by decide, _, step_eq_endTick (by decide)⟩

end Sys2Proof.Tests
end

/-! PROOFS. The family 10_state.md: what reads return in reserved places, writes that carry no
command, and the output ports. -/

namespace Sys2Proof.Machine

/-! ### Register values, one equation per register (20_memory.md R52) -/

@[simp] theorem regValue_cmd (s : State) : regValue s 0#3 = 0#32 := rfl
@[simp] theorem regValue_status (s : State) :
    regValue s 1#3 = statusWord s.cfg.variant s.dec := rfl
@[simp] theorem regValue_btn (s : State) : regValue s 6#3 = btnWord s.deb := rfl
@[simp] theorem regValue_reserved (s : State) : regValue s 7#3 = 0#32 := rfl

/-! ### The flag registers as the sums of their fields -/

/-- Appending a word below another adds it to the shifted one, as numbers. -/
theorem toNat_append_eq_add {w m : Nat} (x : BitVec w) (y : BitVec m) :
    (x ++ y).toNat = x.toNat * 2 ^ m + y.toNat := by
  rw [BitVec.toNat_append, ← Nat.shiftLeft_add_eq_or_of_lt y.isLt, Nat.shiftLeft_eq]

/-- `STATUS` as a number (10_state.md R39). -/
theorem statusWord_toNat (v : Variant) (d : Dec) :
    (statusWord v d).toNat =
      128 * (variantBit v).toNat + 16 * d.err.toNat + 4 * d.valid.toNat + 2 * d.done.toNat +
        (busy d).toNat := by
  refine (toNat_append_eq_add _ _).trans ?_
  simp only [toNat_append_eq_add, BitVec.toNat_ofNat, BitVec.toNat_ofBool]
  omega

/-- `BTN` as a number (10_state.md R45). -/
theorem btnWord_toNat (b : Deb) :
    (btnWord b).toNat = 2 * b.pending.toNat + (suppressedBit b.state).toNat := by
  refine (toNat_append_eq_add _ _).trans ?_
  simp only [toNat_append_eq_add, BitVec.toNat_ofNat, BitVec.toNat_ofBool]
  omega

/-- A number below `2 ^ n` has no bit from `n` on. -/
theorem getLsbD_of_toNat_lt {w n k : Nat} {x : BitVec w} (h : x.toNat < 2 ^ n) (hk : n ≤ k) :
    x.getLsbD k = false :=
  Nat.testBit_lt_two_pow (h.trans_le (Nat.pow_le_pow_right two_pos hk))

/-- Bit 3 of `STATUS` lies between the fields `ERR` and `VALID` (10_state.md R39). -/
theorem statusWord_getLsbD_three (v : Variant) (d : Dec) : (statusWord v d).getLsbD 3 = false := by
  have hvalid := Bool.toNat_lt d.valid
  have hdone := Bool.toNat_lt d.done
  have hbusy := Bool.toNat_lt (busy d)
  rw [BitVec.getLsbD, statusWord_toNat, Nat.testBit_eq_decide_div_mod_eq, decide_eq_false_iff_not]
  omega

/-- `STATUS` has no field above bit 7 (10_state.md R39). -/
theorem statusWord_lt (v : Variant) (d : Dec) : (statusWord v d).toNat < 2 ^ 8 := by
  have hvariant := Bool.toNat_lt (variantBit v)
  have herr := d.err.isLt
  have hvalid := Bool.toNat_lt d.valid
  have hdone := Bool.toNat_lt d.done
  have hbusy := Bool.toNat_lt (busy d)
  rw [statusWord_toNat]
  omega

/-- `BTN` has no field above bit 1 (10_state.md R45). -/
theorem btnWord_lt (b : Deb) : (btnWord b).toNat < 2 ^ 2 := by
  have hpending := Bool.toNat_lt b.pending
  have hsuppressed := Bool.toNat_lt (suppressedBit b.state)
  rw [btnWord_toNat]
  omega

/-! ### The access of a tick acts through its command alone -/

/-- Only a write to `CMD` carries a command (30_encoding.md R72). -/
theorem decodeAccess_write_of_ne {r : RegNum} (v : Word) (h : r ≠ 0#3) :
    decodeAccess (.write r v) = none := if_neg h

/-- An illegal instance is refused, whatever the tick holds (00_scope.md R6). -/
theorem step_of_not_legal {s : State} (h : ¬ s.cfg.Legal) :
    step s = .refused .illegalParameters := if_neg h

/-- Two accesses that carry the same command, or none, update the decoder alike. -/
theorem tickDec_setInputs_host_congr (s : State) (i : Inputs) {h h' : HostAccess}
    (e : decodeAccess h = decodeAccess h') :
    tickDec (setInputs s { i with host := h }) = tickDec (setInputs s { i with host := h' }) := by
  simp only [tickDec, fetchCommand, inputs_setInputs, e]
  rfl

/-- Two accesses that carry the same command, or none, update the button controller alike. -/
theorem tickDeb_setInputs_host_congr (s : State) (i : Inputs) {h h' : HostAccess}
    (e : decodeAccess h = decodeAccess h') :
    tickDeb (setInputs s { i with host := h }) = tickDeb (setInputs s { i with host := h' }) := by
  simp only [tickDeb, fetchCommand, inputs_setInputs, e]
  rfl

/-- The end of a tick uses its inputs up. -/
@[simp] theorem endTick_setInputs (s : State) (i : Inputs) (d : Dec) (b : Deb) :
    endTick (setInputs s i) d b = endTick s d b := rfl

/-- Two accesses that carry the same command, or none, make the same step. -/
theorem step_setInputs_host_congr (s : State) (i : Inputs) {h h' : HostAccess}
    (e : decodeAccess h = decodeAccess h') :
    step (setInputs s { i with host := h }) = step (setInputs s { i with host := h' }) := by
  by_cases hl : s.cfg.Legal
  · have legal : ∀ j, (setInputs s j).cfg.Legal := fun _ => hl
    simp only [step_eq_endTick (legal _), endTick_setInputs, tickDec_setInputs_host_congr s i e,
      tickDeb_setInputs_host_congr s i e]
  · have illegal : ∀ j, ¬ (setInputs s j).cfg.Legal := fun _ => hl
    rw [step_of_not_legal (illegal _), step_of_not_legal (illegal _)]

/-- Settles O13: the reserved bits lie outside the fields of `STATUS` and `BTN`, and a write to
another register than `CMD` decodes to what no access decodes to. -/
theorem reservedRegistersReadZeroAndDropWrites :
    Obligations.ReservedRegistersReadZeroAndDropWrites := by
  refine ⟨fun s => ⟨regValue_cmd s, regValue_reserved s, ?_, fun k hk => ?_, fun k hk => ?_⟩,
    fun s i r v hr => ?_⟩
  · exact statusWord_getLsbD_three s.cfg.variant s.dec
  · exact getLsbD_of_toNat_lt (statusWord_lt s.cfg.variant s.dec) hk
  · exact getLsbD_of_toNat_lt (btnWord_lt s.deb) hk
  · exact step_setInputs_host_congr s i (decodeAccess_write_of_ne v hr)

/-! ### The output ports (10_state.md R40) -/

/-- The line is driven in the two phases of the wake pulse. -/
theorem lineOe_eq_true_iff (s : State) :
    lineOe s = true ↔ s.dec.phase = .startLow ∨ s.dec.phase = .startHigh := by
  simp [lineOe]

/-- The line is driven high in the second of them. -/
theorem lineOut_eq_true_iff (s : State) : lineOut s = true ↔ s.dec.phase = .startHigh := by
  simp [lineOut]

/-- A read is answered in its own tick. -/
theorem rdata_of_read {s : State} {r : RegNum} (h : (inputs s).host = .read r) :
    rdata s = regValue s r := by
  simp [rdata, h]

/-- Without a read `rdata` is 0. -/
theorem rdata_of_no_read {s : State} (h : ∀ r : RegNum, (inputs s).host ≠ .read r) :
    rdata s = 0#32 := by
  cases hh : (inputs s).host with
  | none => simp [rdata, hh]
  | read r => exact absurd hh (h r)
  | write r v => simp [rdata, hh]

/-- Settles O14: four ports are state elements, and the others have their lemma each. -/
theorem outputsAreFunctionsOfTheStartState : Obligations.OutputsAreFunctionsOfTheStartState :=
  fun s => ⟨lineOe_eq_true_iff s, lineOut_eq_true_iff s, rfl, rfl, rfl, rfl,
    fun _ => rdata_of_read, rdata_of_no_read⟩

end Sys2Proof.Machine

/-! PROOFS. The family 20_memory.md: what a read of each register returns, and that a read is no
more than its answer. -/

namespace Sys2Proof.Machine

/-! ### The result registers, and their gate `VALID` (20_memory.md R52) -/

theorem regValue_data (s : State) :
    regValue s 2#3 = if s.dec.valid = true then dataWord s.dec.shreg else 0#32 := rfl
theorem regValue_chk (s : State) :
    regValue s 3#3 = if s.dec.valid = true then (byte4 s.dec.shreg).setWidth 32 else 0#32 := rfl
theorem regValue_hum (s : State) :
    regValue s 4#3 = if s.dec.valid = true then hum s.cfg.variant s.dec.shreg else 0#32 := rfl
theorem regValue_temp (s : State) :
    regValue s 5#3 = if s.dec.valid = true then temp32 s.cfg.variant s.dec.shreg else 0#32 := rfl

/-- The data bytes are the frame without its lowest byte (10_state.md R41). -/
theorem dataWord_toNat (f : Frame) : (dataWord f).toNat = f.toNat / 256 := by
  have hf := f.isLt
  rw [dataWord, BitVec.extractLsb'_toNat, Nat.shiftRight_eq_div_pow]
  omega

/-- The checksum byte is the frame's lowest byte (30_encoding.md R78). -/
theorem byte4_toNat (f : Frame) : (byte4 f).toNat = f.toNat % 256 := by
  rw [byte4, BitVec.extractLsb'_toNat, Nat.shiftRight_zero]

/-- `DATA` as a number (10_state.md R41). -/
theorem regValue_data_toNat (s : State) :
    (regValue s 2#3).toNat = if s.dec.valid = true then s.dec.shreg.toNat / 256 else 0 := by
  rw [regValue_data, apply_ite BitVec.toNat, dataWord_toNat, BitVec.toNat_zero]

/-- `CHK` as a number: the checksum byte, zero-extended (10_state.md R42). -/
theorem regValue_chk_toNat (s : State) :
    (regValue s 3#3).toNat = if s.dec.valid = true then s.dec.shreg.toNat % 256 else 0 := by
  rw [regValue_chk, apply_ite BitVec.toNat, BitVec.toNat_setWidth_of_le (by decide), byte4_toNat,
    BitVec.toNat_zero]

/-! ### The flag registers, each field with its weight -/

/-- A flag at weight `n` of a register counts `n` while it is set. -/
theorem mul_toNat_eq_ite (n : Nat) (b : Bool) : n * b.toNat = if b = true then n else 0 := by
  cases b <;> simp

theorem variantBit_eq_true_iff (v : Variant) : variantBit v = true ↔ v = .extended := by
  cases v <;> decide

theorem suppressedBit_eq_true_iff (b : DebState) : suppressedBit b = true ↔ b = .suppressed := by
  cases b <;> decide

/-- `BUSY` as a number (10_state.md R30). -/
theorem busy_toNat (d : Dec) : (busy d).toNat = if d.phase = .idle then 0 else 1 := by
  by_cases h : d.phase = .idle <;> simp [busy, h]

/-- `STATUS` as a number, its flags as conditions on the state (10_state.md R39). -/
theorem regValue_status_toNat (s : State) :
    (regValue s 1#3).toNat =
      (if s.cfg.variant = .extended then 128 else 0) + 16 * s.dec.err.toNat +
        (if s.dec.valid = true then 4 else 0) + (if s.dec.done = true then 2 else 0) +
        (if s.dec.phase = .idle then 0 else 1) := by
  simp only [regValue_status, statusWord_toNat, mul_toNat_eq_ite, variantBit_eq_true_iff,
    busy_toNat]

/-- `BTN` as a number, its flags as conditions on the state (10_state.md R45). -/
theorem regValue_btn_toNat (s : State) :
    (regValue s 6#3).toNat =
      (if s.deb.pending = true then 2 else 0) + (if s.deb.state = .suppressed then 1 else 0) := by
  rw [regValue_btn, btnWord_toNat, ← Nat.one_mul (suppressedBit _).toNat]
  simp only [mul_toNat_eq_ite, suppressedBit_eq_true_iff]

/-- Settles O11: one equation per register, and a read is answered from the start state. -/
theorem readValuesOfAllRegisters : Obligations.ReadValuesOfAllRegisters :=
  fun s => ⟨regValue_cmd s, regValue_status_toNat s, regValue_data_toNat s, regValue_chk_toNat s,
    regValue_hum s, regValue_temp s, regValue_btn_toNat s, regValue_reserved s,
    fun _ => rdata_of_read⟩

/-! ### A read is no more than its answer (20_memory.md R53) -/

/-- A read carries no command, as no access does (30_encoding.md R72). -/
theorem decodeAccess_read (r : RegNum) : decodeAccess (.read r) = decodeAccess .none := rfl

/-- The registers show the decoder, the button controller and the parameters alone, not the inputs
to come nor the time. -/
theorem regValue_congr {s t : State} (r : RegNum) (hdec : t.dec = s.dec) (hdeb : t.deb = s.deb)
    (hcfg : t.cfg = s.cfg) : regValue t r = regValue s r := by
  simp only [regValue, hdec, hdeb, hcfg]

/-- Settles O12: a tick acts through its command alone, and a read carries none. -/
theorem readsHaveNoSideEffect : Obligations.ReadsHaveNoSideEffect :=
  ⟨fun s i r => step_setInputs_host_congr s i (decodeAccess_read r),
    fun _ _ r => regValue_congr r⟩

end Sys2Proof.Machine

/-! PROOFS. The family 30_encoding.md: the decoder's case list, the words and writes it drops, and
the layout of a received frame. -/

namespace Sys2Proof.Machine

/-! ### The bits of a frame, in the order received (30_encoding.md R78) -/

/-- The new bit comes in at bit 0. -/
@[simp] theorem shiftIn_getLsbD_zero (f : Frame) (b : Bool) : (shiftIn f b).getLsbD 0 = b := by
  refine (BitVec.getLsbD_append ..).trans ?_
  simp

/-- Every other bit moves up by one place. -/
theorem shiftIn_getLsbD_succ (f : Frame) (b : Bool) {j : Nat} (h : j + 1 < 40) :
    (shiftIn f b).getLsbD (j + 1) = f.getLsbD j := by
  have hj : j < 39 := Nat.lt_of_succ_lt_succ h
  refine (BitVec.getLsbD_append ..).trans ?_
  simp [hj]

/-- Of the bits shifted in, the last received stands in bit 0, the one before it in bit 1, and so
on. -/
theorem foldl_shiftIn_getLsbD (bits : List Bool) (f : Frame) {j : Nat} (hlen : j < bits.length)
    (hreg : j < 40) : (bits.foldl shiftIn f).getLsbD j = bits.reverse.getD j false := by
  induction bits using List.reverseRecOn generalizing j with
  | nil => exact absurd hlen (Nat.not_lt_zero j)
  | append_singleton bits b ih =>
    rw [List.foldl_append, List.reverse_append]
    cases j with
    | zero => exact shiftIn_getLsbD_zero _ b
    | succ j =>
      have hlen' : j < bits.length := by simpa using hlen
      exact (shiftIn_getLsbD_succ _ b hreg).trans (ih hlen' (Nat.lt_of_succ_lt hreg))

/-- Eight bits of a frame from bit `n` up are a digit of it. -/
theorem extractLsb'_eight_toNat (f : Frame) (n : Nat) :
    (f.extractLsb' n 8).toNat = f.toNat / 2 ^ n % 256 := by
  rw [BitVec.extractLsb'_toNat, Nat.shiftRight_eq_div_pow]

theorem byte0_toNat (f : Frame) : (byte0 f).toNat = f.toNat / 2 ^ 32 := by
  have hf : f.toNat / 2 ^ 32 < 256 := Nat.div_lt_of_lt_mul f.isLt
  exact (extractLsb'_eight_toNat f 32).trans (Nat.mod_eq_of_lt hf)
theorem byte1_toNat (f : Frame) : (byte1 f).toNat = f.toNat / 2 ^ 24 % 256 :=
  extractLsb'_eight_toNat f 24
theorem byte2_toNat (f : Frame) : (byte2 f).toNat = f.toNat / 2 ^ 16 % 256 :=
  extractLsb'_eight_toNat f 16
theorem byte3_toNat (f : Frame) : (byte3 f).toNat = f.toNat / 2 ^ 8 % 256 :=
  extractLsb'_eight_toNat f 8

/-- Settles O34: with 40 bits the place from the end is 39 less the place from the front, and each
byte has its lemma. -/
theorem receivedBitsLandMostSignificantFirst :
    Obligations.ReceivedBitsLandMostSignificantFirst := by
  refine ⟨fun bits f hlen k hk => ?_, fun f =>
    ⟨byte0_toNat f, byte1_toNat f, byte2_toNat f, byte3_toNat f, byte4_toNat f⟩⟩
  have hj : 39 - k < bits.length := by omega
  have hplace : bits.length - 1 - (39 - k) = k := by omega
  rw [foldl_shiftIn_getLsbD bits f hj (by omega), List.getD_reverse _ hj, hplace]

/-! ### The decoder's case list (30_encoding.md R70 to R73) -/

/-- The commands in the order of their operation codes (30_encoding.md R71). -/
def commandsByCode : List Instr := [.nop, .startPulse, .readFrame, .acquire, .btnAck]

/-- An operation code is a place in the list of the commands; 5, 6 and 7 lie beyond its end. -/
theorem decodeOp_toOption (op : BitVec 3) : (decodeOp op).toOption = commandsByCode[op.toNat]? := by
  revert op
  decide

/-- `ZERO` as a number (30_encoding.md R70). -/
theorem cmdFields_zero_toNat (v : Word) : (cmdFields v).zero.toNat = v.toNat / 8 := by
  have hv := v.isLt
  rw [cmdFields, BitVec.extractLsb'_toNat, Nat.shiftRight_eq_div_pow]
  omega

/-- `OP` as a number (30_encoding.md R70). -/
theorem cmdFields_op_toNat (v : Word) : (cmdFields v).op.toNat = v.toNat % 8 := by
  rw [cmdFields, BitVec.extractLsb'_toNat, Nat.shiftRight_zero]

theorem cmdFields_zero_eq_zero_iff (v : Word) : (cmdFields v).zero = 0 ↔ v.toNat / 8 = 0 := by
  rw [← cmdFields_zero_toNat]
  exact BitVec.toNat_eq

/-- A word with `ZERO` clear is the command that `OP` numbers, if there is one. -/
theorem decodeAccess_write_cmd_of_zero_clear {v : Word} (h : v.toNat / 8 = 0) :
    decodeAccess (.write 0#3 v) = commandsByCode[v.toNat % 8]? := by
  have hword : decodeWord v = decodeOp (cmdFields v).op :=
    if_pos ((cmdFields_zero_eq_zero_iff v).mpr h)
  calc decodeAccess (.write 0#3 v)
    _ = (decodeOp (cmdFields v).op).toOption := congrArg Except.toOption hword
    _ = commandsByCode[v.toNat % 8]? := by rw [decodeOp_toOption, cmdFields_op_toNat]

/-- A word with a bit of `ZERO` set is no command. -/
theorem decodeAccess_write_cmd_of_zero_set {v : Word} (h : v.toNat / 8 ≠ 0) :
    decodeAccess (.write 0#3 v) = none := by
  have hword : decodeWord v = .error (.zeroFieldNotZero (cmdFields v).zero) :=
    if_neg (mt (cmdFields_zero_eq_zero_iff v).mp h)
  exact congrArg Except.toOption hword

/-- The illegal words: a bit of `ZERO` is set, or `OP` is a reserved code (30_encoding.md R73). -/
theorem decodeAccess_write_cmd_of_illegal {v : Word} (h : ¬ (v.toNat / 8 = 0 ∧ v.toNat % 8 ≤ 4)) :
    decodeAccess (.write 0#3 v) = none := by
  by_cases hzero : v.toNat / 8 = 0
  · have hop : commandsByCode.length ≤ v.toNat % 8 := Nat.lt_of_not_le fun hop => h ⟨hzero, hop⟩
    rw [decodeAccess_write_cmd_of_zero_clear hzero, List.getElem?_eq_none hop]
  · exact decodeAccess_write_cmd_of_zero_set hzero

/-- Settles O3: a legal word has `ZERO` clear, and the other accesses have their lemma each. -/
theorem commandDecodeIsTheSpecsCaseList : Obligations.CommandDecodeIsTheSpecsCaseList :=
  ⟨fun _ hzero _ => decodeAccess_write_cmd_of_zero_clear hzero,
    fun _ => decodeAccess_write_cmd_of_illegal, fun _ v => decodeAccess_write_of_ne v,
    decodeAccess_read, rfl⟩

/-- Settles O5: the words above 4 are illegal, and a tick acts through its command alone. -/
theorem droppedWritesAreNoAccess : Obligations.DroppedWritesAreNoAccess := by
  refine fun s i => ⟨fun v hv => ?_, fun r v hr => ?_⟩
  · have hillegal : ¬ (v.toNat / 8 = 0 ∧ v.toNat % 8 ≤ 4) := by omega
    exact step_setInputs_host_congr s i (decodeAccess_write_cmd_of_illegal hillegal)
  · exact step_setInputs_host_congr s i (decodeAccess_write_of_ne v hr)

end Sys2Proof.Machine

/-! PROOFS. The family 40_decoder_commands.md: acceptance, the phases of a command tick by tick, its
completion, and what the host cannot do to it. -/

namespace Sys2Proof.Machine

/-! ### Acceptance (40_decoder_commands.md R100, R101, R105) -/

/-- In `IDLE` a decoder command changes the tick in the decoder alone, which holds the values of
acceptance. -/
theorem endTick_decCommand_idle {s : State} (q : Phase) (c : Bool) (hp : s.dec.phase = .idle) :
    endTick s (decCommand s q c) (debQuiet s) = { quietTick s with dec := accept q c s.dec } := by
  rw [decCommand, decCommandStep_idle _ _ q c _ hp]
  rfl

/-- In every other phase the tick is the one with no access. -/
theorem endTick_decCommand_busy {s : State} (q : Phase) (c : Bool) (hp : s.dec.phase ≠ .idle) :
    endTick s (decCommand s q c) (debQuiet s) = quietTick s := by
  rw [decCommand, decCommandStep_busy _ _ q c _ hp]
  rfl

/-- Settles O16: the three commands are one operation with three targets, accepted or dropped. -/
theorem decoderCommandsAreAcceptedInIdleOnly :
    Obligations.DecoderCommandsAreAcceptedInIdleOnly := by
  refine fun s => ⟨fun hp => ?_, fun hp => ?_⟩
  · have accepted (q : Phase) (c : Bool) := congrArg
      (Host.Outcome.next (φ := Fault) (ρ := Refusal)) (endTick_decCommand_idle q c hp)
    exact ⟨accepted .startLow false, accepted .ackW0 false, accepted .startLow true⟩
  · have dropped (q : Phase) (c : Bool) := congrArg
      (Host.Outcome.next (φ := Fault) (ρ := Refusal)) (endTick_decCommand_busy q c hp)
    exact ⟨dropped .startLow false, dropped .ackW0 false, dropped .startLow true⟩

/-- A tick with no command, or with `NOP`, is the reset tick or the quiet tick. -/
theorem step_of_nop_or_none {s : State}
    (h : fetchCommand s = none ∨ fetchCommand s = some .nop) :
    step s =
      if s.cfg.Legal then
        if (inputs s).rst then .next (resetTick s) else .next (quietTick s)
      else .refused .illegalParameters := by
  rcases h with h | h
  · simp only [step, h]
  · simp only [step, h, exec, execNop, quietTick]

/-- Settles O17: `NOP` is the quiet tick by definition, and its word decodes to it. -/
theorem nopLeavesTheTickAsWithNoAccess : Obligations.NopLeavesTheTickAsWithNoAccess := by
  refine fun s => ⟨rfl, fun i => ?_⟩
  have hword : decodeAccess (.write 0#3 0x00000000#32) = some .nop := by decide
  have hnop : fetchCommand (setInputs s { i with host := .write 0#3 0x00000000#32 }) = some .nop :=
    hword
  have hnone : fetchCommand (setInputs s { i with host := .none }) = none := rfl
  rw [step_of_nop_or_none (.inr hnop), step_of_nop_or_none (.inl hnone)]
  rfl

/-- With no `rst`, a decoder that rests accepts a decoder command. -/
theorem tickDec_accepts {s : State} {i : Instr} (hr : (inputs s).rst = false)
    (hp : s.dec.phase = .idle) (hf : fetchCommand s = some i)
    (hc : isDecoderCommand (some i) = true) :
    tickDec s =
      accept (if i = .readFrame then .ackW0 else .startLow) (decide (i = .acquire)) s.dec := by
  have accepted (q : Phase) (c : Bool) : decCommand s q c = accept q c s.dec :=
    decCommandStep_idle _ _ q c _ hp
  unfold tickDec
  rw [hr, hf]
  cases i with
  | startPulse => exact accepted .startLow false
  | readFrame => exact accepted .ackW0 false
  | acquire => exact accepted .startLow true
  | nop => cases hc
  | btnAck => cases hc

/-- Settles O20: the line is driven in other phases only, and the decoder either assigns `DONE_EVT`
alone or accepts. -/
theorem idleTickHoldsTheResult : Obligations.IdleTickHoldsTheResult := by
  refine fun s hl hr hp => ⟨?_, fun hc => ?_, fun i hf hc => ?_⟩
  · simp [lineOe, hp]
  · exact ⟨_, step_eq_endTick hl, tickDec_idle hr hp hc⟩
  · exact ⟨_, step_eq_endTick hl, tickDec_accepts hr hp hf hc⟩

/-! ### The decoder's tick, one equation per busy phase (40_decoder_commands.md R106 to R115) -/

section
variable {p : Params} {line : Bool} {d : Dec}

theorem decStep_startLow (h : d.phase = .startLow) :
    decStep p line d = startLowTick p { d with doneEvt := false } := by
  simp [decStep, phaseTick, h]
theorem decStep_startHigh (h : d.phase = .startHigh) :
    decStep p line d = startHighTick p { d with doneEvt := false } := by
  simp [decStep, phaseTick, h]
theorem decStep_ackW0 (h : d.phase = .ackW0) :
    decStep p line d = ackW0Tick p line { d with doneEvt := false } := by
  simp [decStep, phaseTick, h]
theorem decStep_ackW1 (h : d.phase = .ackW1) :
    decStep p line d = ackW1Tick p line { d with doneEvt := false } := by
  simp [decStep, phaseTick, h]
theorem decStep_ackW2 (h : d.phase = .ackW2) :
    decStep p line d = ackW2Tick p line { d with doneEvt := false } := by
  simp [decStep, phaseTick, h]
theorem decStep_bitLow (h : d.phase = .bitLow) :
    decStep p line d = bitLowTick p line { d with doneEvt := false } := by
  simp [decStep, phaseTick, h]
theorem decStep_bitHigh (h : d.phase = .bitHigh) :
    decStep p line d = bitHighTick p line { d with doneEvt := false } := by
  simp [decStep, phaseTick, h]

end

/-- With no `rst`, a busy decoder takes its phase's step, if the parameters are legal. -/
theorem step_busy {s : State} (hl : s.cfg.Legal) (hr : (inputs s).rst = false)
    (hp : s.dec.phase ≠ .idle) :
    ∃ t, step s = .next t ∧ t.dec = decStep s.cfg (inputs s).lineIn s.dec :=
  ⟨_, step_eq_endTick hl, tickDec_busy hr hp⟩

/-! ### The waits (40_decoder_commands.md R110 to R116) -/

/-- The step of a phase that waits out the level `lv`: on the other level its continuation, within
the timeout one more sample, past it the error `e`. -/
theorem step_wait {s : State} (lv : Bool) (e : DecodeError) {k : BitVec 15 → Dec}
    (hl : s.cfg.Legal) (hr : (inputs s).rst = false) (hp : s.dec.phase ≠ .idle)
    (hwait : decStep s.cfg (inputs s).lineIn s.dec =
      wait s.cfg (inputs s).lineIn lv e k { s.dec with doneEvt := false }) :
    ((inputs s).lineIn = !lv → ∃ t, step s = .next t ∧ t.dec = k s.dec.cnt) ∧
    ((inputs s).lineIn = lv → s.dec.cnt.toNat < s.cfg.timeoutTicks →
      ∃ t, step s = .next t ∧ t.dec = { s.dec with cnt := s.dec.cnt + 1, doneEvt := false }) ∧
    ((inputs s).lineIn = lv → s.cfg.timeoutTicks ≤ s.dec.cnt.toNat →
      ∃ t, step s = .next t ∧ t.dec = raiseError e s.dec) := by
  obtain ⟨t, ht, hdec⟩ := step_busy hl hr hp
  rw [hwait] at hdec
  refine ⟨fun hline => ⟨t, ht, ?_⟩, fun hline hc => ⟨t, ht, ?_⟩, fun hline hc => ⟨t, ht, ?_⟩⟩
  · exact hdec.trans (wait_ended (by simp [hline]))
  · rw [hline] at hdec
    exact hdec.trans (wait_counts hc)
  · rw [hline] at hdec
    exact hdec.trans (wait_timedOut hc)

/-- Settles O22: a wait for the end of the level 0. -/
theorem ackW1WaitsOutTheLowPulse : Obligations.AckW1WaitsOutTheLowPulse :=
  fun _ hl hr hp =>
    step_wait false .noResponse hl hr (hp.trans_ne (by decide)) (decStep_ackW1 hp)

/-- Settles O23: a wait for the end of the level 1. -/
theorem ackW0WaitsForTheLowPulse : Obligations.AckW0WaitsForTheLowPulse :=
  fun _ hl hr hp =>
    step_wait true .noResponse hl hr (hp.trans_ne (by decide)) (decStep_ackW0 hp)

/-- Settles O24: a wait for the end of the level 1. -/
theorem ackW2WaitsOutTheHighPulse : Obligations.AckW2WaitsOutTheHighPulse :=
  fun _ hl hr hp =>
    step_wait true .noResponse hl hr (hp.trans_ne (by decide)) (decStep_ackW2 hp)

/-- Settles O25: a wait for the end of the level 0, with an error of its own. -/
theorem bitLowWaitsOutTheSeparator : Obligations.BitLowWaitsOutTheSeparator :=
  fun _ hl hr hp =>
    step_wait false .lowPulseTimeout hl hr (hp.trans_ne (by decide)) (decStep_bitLow hp)

/-- The bit of a high pulse as a number (30_encoding.md R77). -/
theorem symbolBit_toNat (p : Params) (n : BitVec 15) :
    (symbolBit p n).toNat = if p.bitThresholdTicks < n.toNat then 1 else 0 := by
  by_cases h : p.bitThresholdTicks < n.toNat <;> simp [symbolBit, h]

/-- The frame with the bit of a high pulse shifted in, by its number (40_decoder_commands.md R115). -/
theorem shiftIn_symbolBit (p : Params) (n : BitVec 15) (f : Frame) :
    shiftIn f (symbolBit p n) =
      BitVec.ofNat 40 (2 * f.toNat + (if p.bitThresholdTicks < n.toNat then 1 else 0)) := by
  apply BitVec.eq_of_toNat_eq
  rw [shiftIn_toNat, symbolBit_toNat, BitVec.toNat_ofNat]

/-- The checksum test of a frame (30_encoding.md R79). -/
theorem frameOk_eq_true_iff (f : Frame) :
    frameOk f = true ↔ checksum (byte0 f) (byte1 f) (byte2 f) (byte3 f) = byte4 f :=
  beq_iff_eq

/-- After bit 39 the frame completes (40_decoder_commands.md R115). -/
theorem bitReceived_last {p : Params} {n : BitVec 15} {d : Dec} (h : d.bitcnt = 39) :
    bitReceived p n d = completeFrame (shiftIn d.shreg (symbolBit p n)) d := if_pos h

/-- Settles O27: the end of the last high pulse completes the frame, with either outcome of the
checksum test. -/
theorem frameCompletionChecksTheFrame : Obligations.FrameCompletionChecksTheFrame := by
  intro s f hl hr hp hline hbit hf
  obtain ⟨hended, -, -⟩ :=
    step_wait true .highPulseTimeout hl hr (hp.trans_ne (by decide)) (decStep_bitHigh hp)
  obtain ⟨t, ht, hlast⟩ := hended hline
  have hframe : shiftIn s.dec.shreg (symbolBit s.cfg s.dec.cnt) = f :=
    (shiftIn_symbolBit ..).trans hf.symm
  have hdec : t.dec = completeFrame f { s.dec with doneEvt := false } :=
    hframe ▸ hlast.trans (bitReceived_last hbit)
  rcases completeFrame_cases f { s.dec with doneEvt := false } with ⟨hok, hc⟩ | ⟨hbad, hc⟩
  · exact ⟨fun _ => ⟨t, ht, hdec.trans hc⟩,
      fun hne => absurd ((frameOk_eq_true_iff f).mp hok) hne⟩
  · refine ⟨fun he => ?_, fun _ => ⟨t, ht, hdec.trans hc⟩⟩
    exact absurd ((frameOk_eq_true_iff f).mpr he) (Bool.eq_false_iff.mp hbad)

/-! ### Completion (40_decoder_commands.md R119) -/

/-- A decoder that has just completed its command: it rests, with the pulse and its level. -/
def Completed (d : Dec) : Prop := d.phase = .idle ∧ d.done = true ∧ d.doneEvt = true

/-- A decoder whose command goes on, with no pulse. -/
def GoesOn (d : Dec) : Prop := d.phase ≠ .idle ∧ d.doneEvt = false

theorem completed_raiseError (e : DecodeError) (d : Dec) : Completed (raiseError e d) :=
  ⟨rfl, rfl, rfl⟩

theorem completed_completePulse (d : Dec) : Completed (completePulse d) := ⟨rfl, rfl, rfl⟩

theorem completed_completeFrame (f : Frame) (d : Dec) : Completed (completeFrame f d) := by
  rcases completeFrame_cases f d with ⟨-, h⟩ | ⟨-, h⟩ <;> rw [h]
  · exact ⟨rfl, rfl, rfl⟩
  · exact completed_raiseError _ d

/-- A wait of a command that goes on completes it or lets it go on, if its continuation does. -/
theorem wait_completed_or_goesOn (p : Params) (line lv : Bool) (e : DecodeError)
    {k : BitVec 15 → Dec} {d : Dec} (hd : GoesOn d)
    (hk : Completed (k d.cnt) ∨ GoesOn (k d.cnt)) :
    Completed (wait p line lv e k d) ∨ GoesOn (wait p line lv e k d) := by
  rcases wait_cases p line lv e k d with ⟨-, h⟩ | ⟨-, -, h⟩ | ⟨-, -, h⟩ <;> rw [h]
  · exact hk
  · exact .inl (completed_raiseError e d)
  · exact .inr hd

/-- The end of a high pulse completes the frame or lets the command go on. -/
theorem bitReceived_completed_or_goesOn (p : Params) (n : BitVec 15) {d : Dec} (hd : GoesOn d) :
    Completed (bitReceived p n d) ∨ GoesOn (bitReceived p n d) := by
  rcases bitReceived_cases p n d with ⟨-, h⟩ | ⟨-, h⟩ <;> rw [h]
  · exact .inl (completed_completeFrame _ d)
  · exact .inr ⟨nofun, hd.2⟩

theorem startLowTick_goesOn (p : Params) {d : Dec} (hd : GoesOn d) : GoesOn (startLowTick p d) := by
  unfold startLowTick
  split
  · exact ⟨nofun, hd.2⟩
  · exact hd

theorem startHighTick_completed_or_goesOn (p : Params) {d : Dec} (hd : GoesOn d) :
    Completed (startHighTick p d) ∨ GoesOn (startHighTick p d) := by
  unfold startHighTick
  split
  · split
    · exact .inr ⟨nofun, hd.2⟩
    · exact .inl (completed_completePulse d)
  · exact .inr hd

/-- A tick of a busy decoder completes its command or lets it go on. -/
theorem decStep_completed_or_goesOn (p : Params) (line : Bool) {d : Dec} (hp : d.phase ≠ .idle) :
    Completed (decStep p line d) ∨ GoesOn (decStep p line d) := by
  have hd : GoesOn { d with doneEvt := false } := ⟨hp, rfl⟩
  cases h : d.phase with
  | idle => exact absurd h hp
  | startLow => rw [decStep_startLow h]; exact .inr (startLowTick_goesOn p hd)
  | startHigh => rw [decStep_startHigh h]; exact startHighTick_completed_or_goesOn p hd
  | ackW0 =>
    rw [decStep_ackW0 h]; exact wait_completed_or_goesOn _ _ _ _ hd (.inr ⟨nofun, rfl⟩)
  | ackW1 =>
    rw [decStep_ackW1 h]; exact wait_completed_or_goesOn _ _ _ _ hd (.inr ⟨nofun, rfl⟩)
  | ackW2 =>
    rw [decStep_ackW2 h]; exact wait_completed_or_goesOn _ _ _ _ hd (.inr ⟨nofun, rfl⟩)
  | bitLow =>
    rw [decStep_bitLow h]; exact wait_completed_or_goesOn _ _ _ _ hd (.inr ⟨nofun, rfl⟩)
  | bitHigh =>
    rw [decStep_bitHigh h]
    exact wait_completed_or_goesOn _ _ _ _ hd (bitReceived_completed_or_goesOn p _ hd)

/-- In a tick with `rst` the decoder takes its reset values. -/
theorem tickDec_reset {s : State} (hr : (inputs s).rst = true) : tickDec s = Dec.reset := if_pos hr

/-- The pulse of a tick marks the end of a busy phase in `IDLE`, and comes with its level. -/
theorem tickDec_doneEvt (s : State) :
    ((tickDec s).doneEvt = true ↔
      (inputs s).rst = false ∧ s.dec.phase ≠ .idle ∧ (tickDec s).phase = .idle) ∧
    ((tickDec s).doneEvt = true → (tickDec s).done = true) := by
  cases hr : (inputs s).rst with
  | true => simp [tickDec_reset hr, Dec.reset]
  | false =>
    by_cases hp : s.dec.phase = .idle
    · simp [tickDec_doneEvt_of_idle hp, hp]
    · rw [tickDec_busy hr hp]
      rcases decStep_completed_or_goesOn s.cfg (inputs s).lineIn hp with
        ⟨hidle, hdone, hevt⟩ | ⟨hbusy, hevt⟩
      · simp [hp, hidle, hdone, hevt]
      · simp [hbusy, hevt]

/-- Settles O29: after the pulse the decoder rests, and a resting decoder's tick has no pulse. -/
theorem donePulseMarksEachCompletion : Obligations.DonePulseMarksEachCompletion := by
  intro s t hs
  obtain ⟨-, rfl⟩ := (step_next_iff s t).mp hs
  obtain ⟨hiff, hdone⟩ := tickDec_doneEvt s
  refine ⟨hiff, fun hevt => ⟨hdone hevt, fun u hu => ?_⟩⟩
  obtain ⟨-, rfl⟩ := (step_next_iff _ u).mp hu
  obtain ⟨-, -, hidle⟩ := hiff.mp hevt
  exact tickDec_doneEvt_of_idle hidle

/-! ### The wake pulse (40_decoder_commands.md R106, R107) -/

/-- `d'` is `d` after `n` more samples counted in the same phase; `DONE_EVT` aside, which the first
of them clears. -/
def Counted (n : Nat) (d d' : Dec) : Prop :=
  d' = { d with cnt := d.cnt + BitVec.ofNat 15 n, doneEvt := d'.doneEvt }

namespace Counted
variable {n : Nat} {d d' : Dec}

theorem phase_eq (h : Counted n d d') : d'.phase = d.phase := by rw [h]

theorem chain_eq (h : Counted n d d') : d'.chain = d.chain := by rw [h]

theorem cnt_toNat (h : Counted n d d') (h0 : d.cnt = 0) (hn : n < 2 ^ 15) : d'.cnt.toNat = n := by
  rw [h, h0]
  simpa using hn

theorem zero (d : Dec) : Counted 0 d d := by simp [Counted]

theorem succ (h : Counted n d d') :
    Counted (n + 1) d { d' with cnt := d'.cnt + 1, doneEvt := false } := by
  unfold Counted
  rw [h]
  simp [BitVec.ofNat_add, BitVec.add_assoc]

end Counted

/-- With no `rst`, the decoder after one tick more of a busy phase. -/
theorem after_succ_dec {s : State} {k : Nat} (hr : (inputsAt s k).rst = false)
    (hp : (after k s).dec.phase ≠ .idle) :
    (after (k + 1) s).dec = decStep s.cfg (inputsAt s k).lineIn (after k s).dec := by
  rw [← inputs_after k s] at hr ⊢
  rw [← after_cfg k s]
  exact tickDec_busy hr hp

/-- A busy phase that counts in each of `n` ticks without `rst` has counted `n` samples after them. -/
theorem counted_after {s : State} {n : Nat} (hp : s.dec.phase ≠ .idle) (hr : NoReset s n)
    (hcount : ∀ j < n, ∀ d, Counted j s.dec d →
      decStep s.cfg (inputsAt s j).lineIn d = { d with cnt := d.cnt + 1, doneEvt := false }) :
    Counted n s.dec (after n s).dec := by
  induction n with
  | zero => exact .zero _
  | succ n ih =>
    have hn : Counted n s.dec (after n s).dec :=
      ih (fun j hj => hr j (by omega)) (fun j hj => hcount j (by omega))
    rw [after_succ_dec (hr n (by omega)) (hn.phase_eq.trans_ne hp), hcount n (by omega) _ hn]
    exact hn.succ

/-- A phase that lasts `n` ticks from `CNT = 0`, whatever the line is: `last` in the tick of the
count `n - 1`, one more count before it. -/
def Dwells (p : Params) (q : Phase) (n : Nat) (last : Dec → Dec) : Prop :=
  ∀ line d, d.phase = q → decStep p line d =
    if n - 1 ≤ d.cnt.toNat then last d else { d with cnt := d.cnt + 1, doneEvt := false }

theorem dwells_startLow (p : Params) : Dwells p .startLow p.startLowTicks
    fun d => { d with phase := .startHigh, cnt := 0, doneEvt := false } :=
  fun _ _ hp => decStep_startLow hp

theorem dwells_startHigh (p : Params) : Dwells p .startHigh p.startHighTicks fun d =>
    if d.chain = true then { d with phase := .ackW0, cnt := 0, doneEvt := false }
    else { d with phase := .idle, cnt := 0, done := true, doneEvt := true } :=
  fun _ _ hp => decStep_startHigh hp

namespace Dwells
variable {s : State} {n : Nat} {last : Dec → Dec}

/-- One tick of such a phase. -/
theorem step_dec (h : Dwells s.cfg s.dec.phase n last) (hl : s.cfg.Legal)
    (hr : (inputs s).rst = false) (hp : s.dec.phase ≠ .idle) :
    ∃ t, step s = .next t ∧ t.dec =
      if n - 1 ≤ s.dec.cnt.toNat then last s.dec
      else { s.dec with cnt := s.dec.cnt + 1, doneEvt := false } := by
  obtain ⟨t, ht, hdec⟩ := step_busy hl hr hp
  exact ⟨t, ht, hdec.trans (h _ _ rfl)⟩

/-- Before its last tick is over such a phase has counted every tick. -/
theorem counted (h : Dwells s.cfg s.dec.phase n last) (hn : n ≤ 32767) (hp : s.dec.phase ≠ .idle)
    (h0 : s.dec.cnt = 0) {k : Nat} (hk : k < n) (hr : NoReset s k) :
    Counted k s.dec (after k s).dec := by
  refine counted_after hp hr fun j hj d hd => ?_
  have hcnt : d.cnt.toNat = j := hd.cnt_toNat h0 (by omega)
  rw [h _ d hd.phase_eq, if_neg (by omega)]

/-- After its last tick such a phase has done its `last` once, on the count `n - 1`. -/
theorem after_last (h : Dwells s.cfg s.dec.phase n last) (hmin : 1 ≤ n) (hmax : n ≤ 32767)
    (hp : s.dec.phase ≠ .idle) (h0 : s.dec.cnt = 0) (hr : NoReset s n) :
    ∃ d, Counted (n - 1) s.dec d ∧ (after n s).dec = last d := by
  obtain ⟨m, rfl⟩ : ∃ m, n = m + 1 := ⟨n - 1, by omega⟩
  have hm : Counted m s.dec (after m s).dec :=
    h.counted hmax hp h0 (by omega) fun j hj => hr j (by omega)
  have hcnt : (after m s).dec.cnt.toNat = m := hm.cnt_toNat h0 (by omega)
  refine ⟨_, hm, ?_⟩
  rw [after_succ_dec (hr m (by omega)) (hm.phase_eq.trans_ne hp), h _ _ hm.phase_eq,
    if_pos (by omega)]

end Dwells

/-- The decoder after `START_LOW` (40_decoder_commands.md R106). -/
theorem after_startLow {s : State} (hl : s.cfg.Legal) (hp : s.dec.phase = .startLow)
    (h0 : s.dec.cnt = 0) (hr : NoReset s s.cfg.startLowTicks) :
    (after s.cfg.startLowTicks s).dec =
      { s.dec with phase := .startHigh, cnt := 0, doneEvt := false } := by
  have ⟨⟨hmin, hmax⟩, _⟩ := hl
  obtain ⟨d, hd, hlast⟩ := (hp ▸ dwells_startLow s.cfg).after_last hmin hmax
    (hp.trans_ne (by decide)) h0 hr
  rw [hlast, hd]

/-- The decoder after `START_HIGH` (40_decoder_commands.md R107). -/
theorem after_startHigh {s : State} (hl : s.cfg.Legal) (hp : s.dec.phase = .startHigh)
    (h0 : s.dec.cnt = 0) (hr : NoReset s s.cfg.startHighTicks) :
    (after s.cfg.startHighTicks s).dec =
      if s.dec.chain = true then { s.dec with phase := .ackW0, cnt := 0, doneEvt := false }
      else { s.dec with phase := .idle, cnt := 0, done := true, doneEvt := true } := by
  have ⟨_, ⟨hmin, hmax⟩, _⟩ := hl
  obtain ⟨d, hd, hlast⟩ := (hp ▸ dwells_startHigh s.cfg).after_last hmin hmax
    (hp.trans_ne (by decide)) h0 hr
  rw [hlast, hd]

/-- Settles O40: `START_LOW` is a phase that lasts its ticks. -/
theorem startLowLastsItsTicks : Obligations.StartLowLastsItsTicks := by
  have dwells {s : State} (hp : s.dec.phase = .startLow) := hp ▸ dwells_startLow s.cfg
  refine ⟨fun s hl hr hp => (dwells hp).step_dec hl hr (hp.trans_ne (by decide)),
    fun s hl hp h0 hr => ⟨fun k hk => ?_, ?_⟩⟩
  · have ⟨⟨_, hmax⟩, _⟩ := hl
    have hk' : Counted k s.dec (after k s).dec :=
      (dwells hp).counted hmax (hp.trans_ne (by decide)) h0 hk fun j hj => hr j (by omega)
    have hphase : (after k s).dec.phase = .startLow := hk'.phase_eq.trans hp
    refine ⟨_, (runs_iff_after k hl).mpr rfl, hphase, hk'.cnt_toNat h0 (by omega),
      (lineOe_eq_true_iff _).mpr (.inl hphase), ?_⟩
    simp [lineOut, hphase]
  · refine ⟨_, (runs_iff_after _ hl).mpr rfl, ?_⟩
    rw [after_startLow hl hp h0 hr]
    exact ⟨rfl, rfl⟩

/-- Settles O41: `START_HIGH` is a phase that lasts its ticks, with two ends. -/
theorem startHighLastsItsTicks : Obligations.StartHighLastsItsTicks := by
  have dwells {s : State} (hp : s.dec.phase = .startHigh) := hp ▸ dwells_startHigh s.cfg
  refine ⟨fun s hl hr hp => (dwells hp).step_dec hl hr (hp.trans_ne (by decide)),
    fun s hl hp h0 hr => ⟨fun k hk => ?_, ?_⟩⟩
  · have ⟨_, ⟨_, hmax⟩, _⟩ := hl
    have hk' : Counted k s.dec (after k s).dec :=
      (dwells hp).counted hmax (hp.trans_ne (by decide)) h0 hk fun j hj => hr j (by omega)
    have hphase : (after k s).dec.phase = .startHigh := hk'.phase_eq.trans hp
    exact ⟨_, (runs_iff_after k hl).mpr rfl, hphase, hk'.cnt_toNat h0 (by omega),
      (lineOe_eq_true_iff _).mpr (.inr hphase), (lineOut_eq_true_iff _).mpr hphase⟩
  · refine ⟨_, (runs_iff_after _ hl).mpr rfl, ?_⟩
    rw [lineOe, after_startHigh hl hp h0 hr]
    cases s.dec.chain with
    | true => exact ⟨rfl, rfl, fun _ => rfl, nofun⟩
    | false => exact ⟨rfl, rfl, nofun, fun _ => ⟨rfl, rfl, rfl⟩⟩

/-! ### A busy decoder and the host (40_decoder_commands.md R121) -/

/-- The tick of a busy decoder depends on the parameters, the decoder, `rst` and `line_in` alone. -/
theorem tickDec_congr_of_busy {s s' : State} (hcfg : s'.cfg = s.cfg) (hdec : s'.dec = s.dec)
    (hrst : (inputs s').rst = (inputs s).rst) (hline : (inputs s').lineIn = (inputs s).lineIn)
    (hp : s.dec.phase ≠ .idle) : tickDec s' = tickDec s := by
  cases hr : (inputs s).rst with
  | true => rw [tickDec_reset hr, tickDec_reset (hrst.trans hr)]
  | false =>
    rw [tickDec_busy hr hp, tickDec_busy (hrst.trans hr) (hdec ▸ hp), hcfg, hdec, hline]

/-- Settles O49, by induction on the ticks: each leaves the two runs with the same decoder. -/
theorem hostCannotDisturbABusyDecoder : Obligations.HostCannotDisturbABusyDecoder := by
  intro k
  induction k with
  | zero =>
    intro s s' t t' _ hdec _ _ ht ht'
    rw [← (runs_zero s t).mp ht, ← (runs_zero s' t').mp ht', hdec]
  | succ k ih =>
    intro s s' t t' hcfg hdec hin hbusy ht ht'
    have hl : s.cfg.Legal := legal_of_runs ht
    have hl' : s'.cfg.Legal := legal_of_runs ht'
    obtain ⟨hrst, hline⟩ := hin 0 (by omega)
    have hp : s.dec.phase ≠ .idle := hbusy 0 s (by omega) ((runs_zero s s).mpr rfl)
    have htick : tickDec s' = tickDec s := tickDec_congr_of_busy hcfg hdec hrst hline hp
    have hrest := (runs_succ_of_legal hl).mp ht
    have hrest' := (runs_succ_of_legal hl').mp ht'
    refine ih (endTick s _ _) (endTick s' _ _) t t' hcfg htick (fun j hj => ?_)
      (fun j u hj hu => ?_) hrest hrest'
    · simpa only [inputsAt_endTick] using hin (j + 1) (by omega)
    · exact hbusy (j + 1) u (by omega) ((runs_succ_of_legal hl).mpr hu)

end Sys2Proof.Machine

/-! PROOFS. The family 41_payload_interpretation.md: the checksum, and a frame's humidity and
temperature in either variant. -/

namespace Sys2Proof.Machine

/-! ### The checksum (41_payload_interpretation.md R140) -/

/-- The sum is formed without loss and truncated once. -/
theorem checksum_toNat (b0 b1 b2 b3 : Byte) :
    (checksum b0 b1 b2 b3).toNat = (b0.toNat + b1.toNat + b2.toNat + b3.toNat) % 256 :=
  BitVec.toNat_ofNat _ 8

/-- Settles O35: bytes are equal when their numbers are. -/
theorem checksumIsTheSumModulo256 : Obligations.ChecksumIsTheSumModulo256 := by
  refine ⟨checksum_toNat, fun f => ?_⟩
  rw [frameOk_eq_true_iff, eq_comm, BitVec.toNat_eq, checksum_toNat]

/-! ### Humidity, and the simple temperature: fields zero-extended
(41_payload_interpretation.md R142 to R144) -/

theorem hum_simple_toNat (f : Frame) : (hum .simple f).toNat = (byte0 f).toNat :=
  BitVec.toNat_setWidth_of_le (by decide)

theorem temp32_simple_toNat (f : Frame) : (temp32 .simple f).toNat = (byte2 f).toNat :=
  BitVec.toNat_setWidth_of_le (by decide)

theorem hum_extended_toNat (f : Frame) : (hum .extended f).toNat = (byte0 f ++ byte1 f).toNat :=
  BitVec.toNat_setWidth_of_le (by decide)

/-- Settles O37: each value is its byte. -/
theorem simplePayloadIsTheWholeBytes : Obligations.SimplePayloadIsTheWholeBytes :=
  fun f => ⟨hum_simple_toNat f, temp32_simple_toNat f⟩

/-- Settles O38: `b1` is appended below `b0`. -/
theorem extendedHumidityIsBigEndian : Obligations.ExtendedHumidityIsBigEndian := by
  intro f
  rw [hum_extended_toNat, toNat_append_eq_add]
  omega

/-! ### The extended temperature (41_payload_interpretation.md R145) -/

/-- The magnitude is the field below bit 15. -/
theorem magnitude_toNat (raw : BitVec 16) :
    ((raw.extractLsb' 0 15).setWidth 16).toNat = raw.toNat % 2 ^ 15 := by
  rw [BitVec.toNat_setWidth_of_le (by decide), BitVec.extractLsb'_toNat, Nat.shiftRight_zero]

/-- The sign is the upper half of the range. -/
theorem sign_eq_true_iff (raw : BitVec 16) : raw.getLsbD 15 = true ↔ 2 ^ 15 ≤ raw.toNat := by
  rw [← BitVec.msb_eq_getLsbD_last, BitVec.msb_eq_decide, decide_eq_true_iff]

/-- A 15-bit magnitude is its own value in 16 bits, and its negation cannot overflow. -/
theorem toInt_of_magnitude {mag : BitVec 16} (h : mag.toNat < 2 ^ 15) :
    mag.toInt = mag.toNat ∧ (0 - mag).toInt = -(mag.toNat : Int) := by
  have hmag : mag.toInt = mag.toNat := BitVec.toInt_eq_toNat_of_lt (by omega)
  refine ⟨hmag, ?_⟩
  have hneg : 0 - mag = -mag := BitVec.zero_sub mag
  rw [hneg, BitVec.toInt_neg, hmag]
  exact Int.bmod_eq_of_le (by omega) (by omega)

/-- Sign and magnitude as a signed number. -/
theorem signMagnitude_toInt (raw : BitVec 16) :
    (signMagnitude raw).toInt =
      if 2 ^ 15 ≤ raw.toNat then -((raw.toNat % 2 ^ 15 : Nat) : Int)
      else ((raw.toNat % 2 ^ 15 : Nat) : Int) := by
  have hmag := magnitude_toNat raw
  obtain ⟨hpos, hneg⟩ := toInt_of_magnitude (hmag.trans_lt (Nat.mod_lt _ (by decide)))
  rw [hmag] at hpos hneg
  simp only [signMagnitude, apply_ite BitVec.toInt, sign_eq_true_iff, hpos, hneg]

/-- The sign extension to 32 bits keeps the value. -/
theorem temp32_extended_toInt (f : Frame) :
    (temp32 .extended f).toInt = (signMagnitude (byte2 f ++ byte3 f)).toInt :=
  BitVec.toInt_signExtend_of_le (by decide)

/-- Settles O39: `b2` holds the sign and the seven upper bits of the magnitude, `b3` the eight
lower ones; either sign is within the range of 15 bits. -/
theorem extendedTemperatureIsSignAndMagnitude :
    Obligations.ExtendedTemperatureIsSignAndMagnitude := by
  intro f
  have hlow : (byte3 f).toNat < 256 := (byte3 f).isLt
  have hraw : (byte2 f ++ byte3 f).toNat = (byte2 f).toNat * 256 + (byte3 f).toNat :=
    toNat_append_eq_add _ _
  rw [temp32_extended_toInt, signMagnitude_toInt, hraw]
  by_cases hsign : 128 ≤ (byte2 f).toNat
  · have hupper : 2 ^ 15 ≤ (byte2 f).toNat * 256 + (byte3 f).toNat := by omega
    rw [if_pos hsign, if_pos hupper]
    omega
  · have hlower : ¬ 2 ^ 15 ≤ (byte2 f).toNat * 256 + (byte3 f).toNat := by omega
    rw [if_neg hsign, if_neg hlower]
    omega

end Sys2Proof.Machine

/-! PROOFS. The family 42_button_controller.md: the edge detector, activation, the re-arm timer, and
the acknowledge. -/

namespace Sys2Proof.Machine

/-! ### The button controller's tick, one equation per row of the table of
42_button_controller.md R167 -/

section
variable {p : Params} {btn ack : Bool} {b : Deb}

theorem debStep_activates (hs : b.state = .armed) (hf : fall b btn = true) :
    debStep p btn ack b = activate p (debDefaults btn ack b) := by
  simp [debStep, armedTick, hs, hf]

theorem debStep_holds (hs : b.state = .armed) (hf : fall b btn = false) :
    debStep p btn ack b = debDefaults btn ack b := by
  simp [debStep, armedTick, hs, hf]

theorem debStep_expires (hs : b.state = .suppressed) (hc : b.cnt.toNat ≤ 1) :
    debStep p btn ack b = expire (debDefaults btn ack b) := by
  simp [debStep, suppressedTick, hs, hc]

theorem debStep_counts (hs : b.state = .suppressed) (hc : 2 ≤ b.cnt.toNat) :
    debStep p btn ack b = { debDefaults btn ack b with cnt := b.cnt - 1 } := by
  have hc' : ¬ b.cnt.toNat ≤ 1 := by omega
  simp [debStep, suppressedTick, hs, hc']

/-! ### What the tick does to each element, in either state (42_button_controller.md R160, R164 to
R166) -/

/-- The edge detector's memory is assigned in every row of the table. -/
theorem debStep_btnPrev : (debStep p btn ack b).btnPrev = btn := by
  rcases debStep_cases p btn ack b with ⟨-, -, h⟩ | ⟨-, -, h⟩ | ⟨-, -, h⟩ | ⟨-, -, h⟩ <;> simp [h]

/-- Only the row of the activation emits an event. -/
theorem debStep_actEvt_iff :
    (debStep p btn ack b).actEvt = true ↔ b.state = .armed ∧ fall b btn = true := by
  rcases debStep_cases p btn ack b with ⟨hs, hf, h⟩ | ⟨hs, hf, h⟩ | ⟨hs, -, h⟩ | ⟨hs, -, h⟩
  · simp [h, hs, hf]
  · simp [h, hs, hf]
  · simp [h, hs]
  · simp [h, hs]

theorem debStep_actEvt_of_suppressed (hs : b.state = .suppressed) :
    (debStep p btn ack b).actEvt = false := by
  rw [Bool.eq_false_iff, ne_eq, debStep_actEvt_iff, hs]
  simp

/-- `PENDING` is what is left unacknowledged, or an activation of this tick: set wins. -/
theorem debStep_pending :
    (debStep p btn ack b).pending = (b.pending && !ack || (debStep p btn ack b).actEvt) := by
  rcases debStep_cases p btn ack b with ⟨-, -, h⟩ | ⟨-, -, h⟩ | ⟨-, -, h⟩ | ⟨-, -, h⟩ <;> simp [h]

/-- An acknowledge changes `PENDING` alone, in every row of the table. -/
theorem debStep_ack :
    debStep p btn true b =
      { debStep p btn false b with pending := decide (b.state = .armed ∧ fall b btn = true) } := by
  rcases debStep_cases p btn true b with ⟨hs, hf, h⟩ | ⟨hs, hf, h⟩ | ⟨hs, hc, h⟩ | ⟨hs, hc, h⟩
  · rw [h, debStep_activates hs hf]
    simp [activate, debDefaults, hs, hf]
  · rw [h, debStep_holds hs hf]
    simp [debDefaults, hf]
  · rw [h, debStep_expires hs hc]
    simp [expire, debDefaults, hs]
  · rw [h, debStep_counts hs hc]
    simp [debDefaults, hs]

end

/-! ### The acknowledge (42_button_controller.md R165, R166) -/

/-- With no `rst` and legal parameters, the decoded command is the one that runs. -/
theorem step_of_fetchCommand {s : State} {i : Instr} (hl : s.cfg.Legal)
    (hr : (inputs s).rst = false) (hf : fetchCommand s = some i) : step s = exec i s := by
  rw [step, if_pos hl, hr, hf]
  rfl

/-- Settles O18: both ticks give the decoder the same step, and `DEB` the one with and without an
acknowledge. -/
theorem btnAckChangesPendingAlone : Obligations.BtnAckChangesPendingAlone := by
  refine fun s => ⟨?_, fun hl hr hw => step_of_fetchCommand hl hr ?_⟩
  · have hack : debAck s = { debQuiet s with
        pending := decide (s.deb.state = .armed ∧ s.deb.btnPrev = true ∧
          (inputs s).btnIn = false) } := by
      simp only [debAck, debQuiet, debStep_ack, fall_eq_true_iff]
    show Host.Outcome.next (endTick s (decQuiet s) (debAck s)) = _
    rw [hack]
    rfl
  · rw [fetchCommand, hw]
    decide

/-- Settles O19: `PENDING` after an acknowledge is the truth value of an activation. -/
theorem activationWinsOverAcknowledge : Obligations.ActivationWinsOverAcknowledge := by
  intro s
  obtain ⟨hexec, -⟩ := btnAckChangesPendingAlone s
  exact ⟨_, hexec, fun h => decide_eq_true h, fun h => decide_eq_false h⟩

/-! ### Activation (42_button_controller.md R161, R164) -/

/-- In a tick with `rst` the button controller takes its reset values. -/
theorem tickDeb_reset {s : State} (hr : (inputs s).rst = true) : tickDeb s = Deb.reset := if_pos hr

/-- With no `rst` the button controller steps; the host reaches it by `BTN_ACK` alone. -/
theorem tickDeb_of_no_reset {s : State} (hr : (inputs s).rst = false) :
    tickDeb s =
      debStep s.cfg (inputs s).btnIn (decide (fetchCommand s = some .btnAck)) s.deb := by
  simp [tickDeb, hr]

/-- A legal window fits the timer. -/
theorem debounceTicks_toNat {p : Params} (hl : p.Legal) :
    (BitVec.ofNat 19 p.debounceTicks).toNat = p.debounceTicks := by
  obtain ⟨-, -, -, -, -, hmax⟩ := hl
  rw [BitVec.toNat_ofNat]
  omega

/-- With no `rst` and no `BTN_ACK`, `PENDING` is kept or set. -/
theorem tickDeb_pending_of_no_ack {s : State} (hr : (inputs s).rst = false)
    (hn : decodeAccess (inputs s).host ≠ some .btnAck) :
    (tickDeb s).pending = (s.deb.pending || (tickDeb s).actEvt) := by
  have hf : decide (fetchCommand s = some .btnAck) = false := decide_eq_false hn
  rw [tickDeb_of_no_reset hr, hf, debStep_pending]
  simp

/-- Settles O30: with `rst` there is neither event nor `PENDING`; else each clause is a rule about
the button controller's step. -/
theorem activationIsAFallingEdgeWhileArmed : Obligations.ActivationIsAFallingEdgeWhileArmed := by
  intro s t hstep
  obtain ⟨hl, rfl⟩ := (step_next_iff s t).mp hstep
  simp only [endTick_deb]
  cases hr : (inputs s).rst with
  | true => simp [tickDeb_reset hr, Deb.reset]
  | false =>
    have htick := tickDeb_of_no_reset hr
    have hevt : (tickDeb s).actEvt = true ↔
        s.deb.state = .armed ∧ fall s.deb (inputs s).btnIn = true := by
      rw [htick, debStep_actEvt_iff]
    refine ⟨?_, fun h => ?_, fun h => ?_, fun _ hs h => ?_, fun _ hn hpend => ?_⟩
    · rw [hevt, fall_eq_true_iff]
      simp
    · obtain ⟨hs, hf⟩ := hevt.mp h
      rw [htick, debStep_activates hs hf]
      exact ⟨rfl, debounceTicks_toNat hl, rfl⟩
    · rw [htick, debStep_pending, ← htick, Bool.or_eq_true, Bool.and_eq_true] at h
      exact h.imp_left And.left
    · have hf : fall s.deb (inputs s).btnIn = false := by
        simpa [hs, h] using hevt
      rw [htick, debStep_holds hs hf]
      exact ⟨hs, rfl⟩
    · rw [tickDeb_pending_of_no_ack hr hn, hpend, Bool.true_or]

/-! ### The edge detector and the re-arm timer (42_button_controller.md R160, R162, R163) -/

/-- Settles O31: an event is an edge in `Armed`. -/
theorem edgeDetectorRemembersTheLastSample : Obligations.EdgeDetectorRemembersTheLastSample := by
  refine fun s hl hr => ⟨fall_eq_true_iff _ _, _, step_eq_endTick hl, ?_⟩
  rw [endTick_deb, tickDeb_of_no_reset hr]
  refine ⟨debStep_btnPrev, fun hno => ?_, fun hs hprev hbtn => ?_⟩
  · rw [Bool.eq_false_iff, ne_eq, debStep_actEvt_iff, fall_eq_true_iff]
    exact fun h => hno h.2
  · exact debStep_actEvt_iff.mpr ⟨hs, (fall_eq_true_iff _ _).mpr ⟨hprev, hbtn⟩⟩

/-- Settles O32: the timer expires or counts, and neither emits an event. -/
theorem suppressedInputOnlyCountsDown : Obligations.SuppressedInputOnlyCountsDown := by
  refine fun s hl hr hs => ⟨_, step_eq_endTick hl, ?_⟩
  have htick := tickDeb_of_no_reset hr
  have hevt : (tickDeb s).actEvt = false := htick ▸ debStep_actEvt_of_suppressed hs
  rw [endTick_deb]
  refine ⟨hevt, htick ▸ debStep_btnPrev, fun hc => ?_, fun hc => ?_, fun hn => ?_⟩
  · rw [htick, debStep_expires hs hc]
    exact ⟨rfl, rfl⟩
  · rw [htick, debStep_counts hs hc]
    have hdec : (s.deb.cnt - 1).toNat = s.deb.cnt.toNat - 1 := by bv_omega
    exact ⟨hs, hdec⟩
  · rw [tickDeb_pending_of_no_ack hr hn, hevt, Bool.or_false]

end Sys2Proof.Machine

/-! PROOFS. The family 60_exceptions.md: what raises a decode error, and what the host and the ports
see of its completion. -/

namespace Sys2Proof.Machine

/-! ### The phases that wait (40_decoder_commands.md R111 to R115) -/

/-- The error that the timeout of a waiting phase raises; the phases that wait for nothing have
none, and get `NoResponse` here. -/
def waitError (q : Phase) : DecodeError :=
  match q with
  | .bitLow => .lowPulseTimeout
  | .bitHigh => .highPulseTimeout
  | .idle | .startLow | .startHigh | .ackW0 | .ackW1 | .ackW2 => .noResponse

/-- The code of a wait's error, by the phase (30_encoding.md R82). -/
theorem errCode_waitError_toNat (q : Phase) :
    (errCode (waitError q)).toNat = if q = .bitLow then 2 else if q = .bitHigh then 3 else 1 := by
  cases q <;> rfl

/-- A waiting decoder is busy. -/
theorem phase_ne_idle_of_awaited {q : Phase} {lv : Bool} (h : awaitedLevel q = some lv) :
    q ≠ .idle := by
  rintro rfl
  cases h

/-- A waiting decoder has released the line: it listens (10_state.md R40). -/
theorem lineOe_of_awaited {s : State} {lv : Bool} (h : awaitedLevel s.dec.phase = some lv) :
    lineOe s = false := by
  rw [Bool.eq_false_iff, ne_eq, lineOe_eq_true_iff]
  rintro (hp | hp) <;> rw [hp] at h <;> cases h

/-- The tick of a waiting phase is a wait for the end of its level, with its error. -/
theorem decStep_of_awaited (p : Params) (line : Bool) {d : Dec} {q : Phase} {lv : Bool}
    (hp : d.phase = q) (h : awaitedLevel q = some lv) :
    ∃ k, decStep p line d = wait p line lv (waitError q) k { d with doneEvt := false } := by
  cases q with
  | idle => cases h
  | startLow => cases h
  | startHigh => cases h
  | ackW0 => cases h; exact ⟨_, decStep_ackW0 hp⟩
  | ackW1 => cases h; exact ⟨_, decStep_ackW1 hp⟩
  | ackW2 => cases h; exact ⟨_, decStep_ackW2 hp⟩
  | bitLow => cases h; exact ⟨_, decStep_bitLow hp⟩
  | bitHigh => cases h; exact ⟨_, decStep_bitHigh hp⟩

/-! ### What raises a decode error (60_exceptions.md R180, R184) -/

/-- A wait whose level outlasts the timeout raises the error of its phase. -/
theorem step_timedOut {s : State} (hl : s.cfg.Legal) (hr : (inputs s).rst = false)
    (hlv : awaitedLevel s.dec.phase = some (inputs s).lineIn)
    (hc : s.cfg.timeoutTicks ≤ s.dec.cnt.toNat) :
    ∃ t, step s = .next t ∧ t.dec = raiseError (waitError s.dec.phase) s.dec := by
  obtain ⟨k, hwait⟩ := decStep_of_awaited s.cfg (inputs s).lineIn rfl hlv
  obtain ⟨-, -, htimeout⟩ := step_wait _ _ hl hr (phase_ne_idle_of_awaited hlv) hwait
  exact htimeout rfl hc

/-- A last bit that makes a frame with a wrong checksum raises the mismatch. -/
theorem step_checksumMismatch {s : State} (hl : s.cfg.Legal) (hr : (inputs s).rst = false)
    (hp : s.dec.phase = .bitHigh) (hline : (inputs s).lineIn = false) (hbit : s.dec.bitcnt = 39)
    (hbad : frameOk (shiftIn s.dec.shreg (symbolBit s.cfg s.dec.cnt)) = false) :
    ∃ t, step s = .next t ∧ t.dec = raiseError .checksumMismatch s.dec := by
  obtain ⟨-, hmismatch⟩ :=
    frameCompletionChecksTheFrame s _ hl hr hp hline hbit (shiftIn_symbolBit ..)
  exact hmismatch (mt (frameOk_eq_true_iff _).mpr (Bool.eq_false_iff.mp hbad))

/-! ### What the host and the ports see of it (60_exceptions.md R184) -/

/-- Without `VALID` the four result registers read 0 (20_memory.md R52). -/
theorem results_of_not_valid {s : State} (h : s.dec.valid = false) :
    regValue s 2#3 = 0#32 ∧ regValue s 3#3 = 0#32 ∧ regValue s 4#3 = 0#32 ∧
      regValue s 5#3 = 0#32 := by
  simp [regValue_data, regValue_chk, regValue_hum, regValue_temp, h]

/-- `STATUS` after an error: its code, `DONE` and the variant. -/
theorem status_of_raised {s : State} {e : DecodeError} {d : Dec} (h : s.dec = raiseError e d) :
    (regValue s 1#3).toNat =
      (if s.cfg.variant = .extended then 128 else 0) + 16 * (errCode e).toNat + 2 := by
  rw [regValue_status_toNat]
  simp [h]

/-- A resting decoder does not drive the line (10_state.md R40). -/
theorem lineOe_of_idle {s : State} (h : s.dec.phase = .idle) : lineOe s = false := by
  simp [lineOe, h]

/-- One step after a resting decoder there is no completion pulse (40_decoder_commands.md R119). -/
theorem doneEvtOut_of_step_of_idle {s t : State} (hp : s.dec.phase = .idle)
    (hs : step s = .next t) : doneEvtOut t = false := by
  obtain ⟨-, rfl⟩ := (step_next_iff s t).mp hs
  exact tickDec_doneEvt_of_idle hp

/-- Settles O28: each cause is a waiting phase that raises its error, and what is seen of an error
follows from the values it leaves in the decoder, whichever error it is. -/
theorem errorCompletionDiscardsTheFrame : Obligations.ErrorCompletionDiscardsTheFrame := by
  intro s e hl hr hcause
  obtain ⟨lv, err, hlv, ⟨t, hs, ht⟩, rfl⟩ : ∃ lv err, awaitedLevel s.dec.phase = some lv ∧
      (∃ t, step s = .next t ∧ t.dec = raiseError err s.dec) ∧ e = (errCode err).toNat := by
    rcases hcause with ⟨hlv, hc, he⟩ | ⟨hp, hline, hbit, hbad, he⟩
    · exact ⟨_, _, hlv, step_timedOut hl hr hlv hc, he.trans (errCode_waitError_toNat _).symm⟩
    · exact ⟨true, _, hp ▸ rfl, step_checksumMismatch hl hr hp hline hbit hbad, he⟩
  have hcfg : t.cfg = s.cfg := by
    obtain ⟨-, rfl⟩ := (step_next_iff s t).mp hs
    rfl
  have hidle : t.dec.phase = .idle := ht ▸ rfl
  obtain ⟨hdata, hchk, hhum, htemp⟩ := results_of_not_valid (s := t) (ht ▸ rfl)
  refine ⟨lineOe_of_awaited hlv, t, hs, ?_, hcfg ▸ status_of_raised ht, hdata, hchk, hhum, htemp,
    congrArg Dec.doneEvt ht, congrArg Dec.done ht, lineOe_of_idle hidle,
    fun u => doneEvtOut_of_step_of_idle hidle⟩
  rw [ht, BitVec.ofNat_toNat, BitVec.setWidth_eq]
  rfl

end Sys2Proof.Machine

/-! PROOFS. The family of the rules that cross the sections of the spec, part 1: decoding and
encoding, the step of a tick, and reset. -/

namespace Sys2Proof.Machine

/-! ### Decode and encode (30_encoding.md R70 to R73) -/

/-- A word is its two fields (30_encoding.md R70). -/
theorem eq_zero_append_op (v : Word) : v = (cmdFields v).zero ++ (cmdFields v).op := by
  apply BitVec.eq_of_toNat_eq
  rw [toNat_append_eq_add, cmdFields_zero_toNat, cmdFields_op_toNat]
  omega

/-- No two operation codes name the same command (30_encoding.md R71). -/
theorem decodeOp_eq_ok_iff (op : BitVec 3) (i : Instr) : decodeOp op = .ok i ↔ op = opcode i := by
  cases i <;> revert op <;> decide

/-- Both fields of a command's word are fixed: `ZERO` is clear and `OP` is its code. -/
theorem cmdFields_of_decodeWord {v : Word} {i : Instr} (h : decodeWord v = .ok i) :
    (cmdFields v).zero = 0 ∧ (cmdFields v).op = opcode i := by
  by_cases hzero : (cmdFields v).zero = 0
  · rw [decodeWord, if_pos hzero] at h
    exact ⟨hzero, (decodeOp_eq_ok_iff _ i).mp h⟩
  · rw [decodeWord, if_neg hzero] at h
    cases h

theorem decodeWord_encode (i : Instr) : decodeWord (encode i) = .ok i := by
  cases i with
  | nop => exact Laws.EncodingRoundTrip.nop rfl
  | startPulse => exact Laws.EncodingRoundTrip.startPulse rfl
  | readFrame => exact Laws.EncodingRoundTrip.readFrame rfl
  | acquire => exact Laws.EncodingRoundTrip.acquire rfl
  | btnAck => exact Laws.EncodingRoundTrip.btnAck rfl

/-- Settles O4: decoding a command fixes both fields, and the fields are the whole word. -/
theorem decodeAndEncodeAgree : Obligations.DecodeAndEncodeAgree := by
  refine fun v i _ => ⟨fun h => ?_, fun h => h ▸ decodeWord_encode i⟩
  obtain ⟨hzero, hop⟩ := cmdFields_of_decodeWord h
  calc v = (cmdFields v).zero ++ (cmdFields v).op := eq_zero_append_op v
    _ = encode i := by rw [hzero, hop]; rfl

/-- Settles O2: five of the words are encodings, and the other two have a field of no command. -/
theorem sampleCommandWordsDecode : Obligations.SampleCommandWordsDecode :=
  ⟨decodeWord_encode .nop, decodeWord_encode .startPulse, decodeWord_encode .readFrame,
    decodeWord_encode .acquire, decodeWord_encode .btnAck, by decide, by decide⟩

/-! ### The step (00_scope.md R6, R10) -/

/-- `rst` has priority over everything else in the tick (70_reset_and_hazards.md R210). -/
theorem step_reset {s : State} (hl : s.cfg.Legal) (hr : (inputs s).rst = true) :
    step s = .next (resetTick s) := by
  rw [step, if_pos hl, if_pos hr]

/-- Settles O1: the tick's command is the one its access carries. -/
theorem stepRunsTheDecodedCommand : Obligations.StepRunsTheDecodedCommand := by
  refine fun s hl => ⟨step_reset hl, fun hr => ⟨fun v i hw hd _ => ?_, fun hn => ?_⟩⟩
  · have hf : fetchCommand s = some i := by
      rw [fetchCommand, hw]
      exact congrArg Except.toOption hd
    exact step_of_fetchCommand hl hr hf
  · simp [step_of_nop_or_none (.inl hn), hl, hr]

/-- Settles O6: with legal parameters there is a step, and with any others the refusal. -/
theorem illegalParametersAreRefused : Obligations.IllegalParametersAreRefused := by
  refine fun s => ⟨fun h hl => ?_, step_of_not_legal⟩
  rw [step_eq_endTick hl] at h
  cases h

/-- Settles O7: the next state is the one update, which keeps the parameters. -/
theorem legalInstanceNeverStops : Obligations.LegalInstanceNeverStops :=
  fun _ hl => ⟨_, step_eq_endTick hl, rfl⟩

/-! ### Reset (10_state.md R48, 70_reset_and_hazards.md R210, R211) -/

/-- Settles O8: the reset state is these values by definition. -/
theorem resetValuesOfEveryElement : Obligations.ResetValuesOfEveryElement :=
  ⟨rfl, rfl, rfl, rfl, rfl, rfl, rfl, fun _ =>
    ⟨rfl, rfl, rfl, rfl, rfl, rfl, rfl, rfl, rfl, rfl, rfl, rfl, rfl, rfl⟩⟩

/-- `STATUS` after reset shows the variant alone. -/
theorem statusWord_reset (v : Variant) :
    statusWord v Dec.reset = if v = .extended then 0x80#32 else 0#32 := by
  cases v <;> decide

/-- After reset every register but `STATUS` reads 0: no result is valid, and both flags of `BTN` are
clear. -/
theorem regValue_resetWith (p : Params) {r : RegNum} (h : r ≠ 1#3) :
    regValue (State.resetWith p) r = 0#32 := by
  unfold regValue
  split
  case h_1 => exact absurd rfl h
  case h_6 => exact (by decide : btnWord Deb.reset = 0#32)
  all_goals rfl

/-- Settles O9: the ports show flags that are clear and a phase that drives nothing. -/
theorem registersAndOutputsAfterReset : Obligations.RegistersAndOutputsAfterReset :=
  fun p => ⟨statusWord_reset p.variant, fun _ => regValue_resetWith p, rfl, rfl, rfl, rfl, rfl, rfl⟩

/-- Settles O10: the reset tick stores the reset values, and a read does not look at `rst`. -/
theorem resetTickResetsEveryElement : Obligations.ResetTickResetsEveryElement :=
  fun _ hl hr => ⟨⟨_, step_reset hl hr, rfl, rfl, rfl⟩, fun _ => rdata_of_read⟩

end Sys2Proof.Machine

/-! PROOFS. The family of the rules that cross the sections of the spec, part 2: pulse lengths and
frames, and the phases of one tick. -/

namespace Sys2Proof.Machine

/-! ### Pulse lengths (30_encoding.md R77) -/

theorem symbolBit_eq_true_iff (p : Params) (n : BitVec 15) :
    symbolBit p n = true ↔ p.bitThresholdTicks < n.toNat := decide_eq_true_iff

/-- Settles O33: the default threshold is 50. -/
theorem symbolBitComparesWithTheThreshold : Obligations.SymbolBitComparesWithTheThreshold := by
  have hdefault : Config.params.bitThresholdTicks = 50 := rfl
  refine ⟨symbolBit_eq_true_iff, fun n => ⟨?_, ?_⟩⟩
  · rw [Bool.eq_false_iff, ne_eq, symbolBit_eq_true_iff, hdefault, not_lt]
  · rw [symbolBit_eq_true_iff, hdefault]
    exact Nat.lt_iff_add_one_le

/-! ### One flipped bit (41_payload_interpretation.md R141) -/

/-- The checksum is the sum of the data bytes in 8 bits. -/
theorem checksum_eq_add (b0 b1 b2 b3 : Byte) : checksum b0 b1 b2 b3 = b0 + b1 + b2 + b3 := by
  apply BitVec.eq_of_toNat_eq
  rw [checksum_toNat]
  simp only [BitVec.toNat_add]
  omega

theorem frameOk_iff_add (f : Frame) :
    frameOk f = true ↔ byte0 f + byte1 f + byte2 f + byte3 f = byte4 f := by
  rw [frameOk_eq_true_iff, checksum_eq_add]

/-- `g` has exactly one byte that is not 0. -/
def OneByte (g : Frame) : Prop :=
  (byte0 g ≠ 0 ∧ byte1 g = 0 ∧ byte2 g = 0 ∧ byte3 g = 0 ∧ byte4 g = 0) ∨
  (byte0 g = 0 ∧ byte1 g ≠ 0 ∧ byte2 g = 0 ∧ byte3 g = 0 ∧ byte4 g = 0) ∨
  (byte0 g = 0 ∧ byte1 g = 0 ∧ byte2 g ≠ 0 ∧ byte3 g = 0 ∧ byte4 g = 0) ∨
  (byte0 g = 0 ∧ byte1 g = 0 ∧ byte2 g = 0 ∧ byte3 g ≠ 0 ∧ byte4 g = 0) ∨
  (byte0 g = 0 ∧ byte1 g = 0 ∧ byte2 g = 0 ∧ byte3 g = 0 ∧ byte4 g ≠ 0)

/-- Each of the 40 bits lies in one byte. -/
theorem oneByte_twoPow {k : Nat} (h : k < 40) : OneByte (BitVec.twoPow 40 k) := by
  unfold OneByte
  revert k
  decide

/-- Flips within one byte change one term of the checksum's equation, so it cannot still hold. -/
theorem frameOk_xor_of_oneByte {f g : Frame} (hok : frameOk f = true) (hg : OneByte g) :
    frameOk (f ^^^ g) = false := by
  have hbyte (n : Nat) : (f ^^^ g).extractLsb' n 8 = f.extractLsb' n 8 ^^^ g.extractLsb' n 8 :=
    BitVec.extractLsb'_xor
  have h0 : byte0 (f ^^^ g) = byte0 f ^^^ byte0 g := hbyte 32
  have h1 : byte1 (f ^^^ g) = byte1 f ^^^ byte1 g := hbyte 24
  have h2 : byte2 (f ^^^ g) = byte2 f ^^^ byte2 g := hbyte 16
  have h3 : byte3 (f ^^^ g) = byte3 f ^^^ byte3 g := hbyte 8
  have h4 : byte4 (f ^^^ g) = byte4 f ^^^ byte4 g := hbyte 0
  rw [frameOk_iff_add] at hok
  rw [Bool.eq_false_iff, ne_eq, frameOk_iff_add, h0, h1, h2, h3, h4, ← hok]
  rcases hg with ⟨hne, e1, e2, e3, e4⟩ | ⟨e0, hne, e2, e3, e4⟩ | ⟨e0, e1, hne, e3, e4⟩ |
    ⟨e0, e1, e2, hne, e4⟩ | ⟨e0, e1, e2, e3, hne⟩
  · simpa [e1, e2, e3, e4] using hne
  · simpa [e0, e2, e3, e4] using hne
  · simpa [e0, e1, e3, e4] using hne
  · simpa [e0, e1, e2, e4] using hne
  · refine fun h => hne ?_
    simpa [e0, e1, e2, e3] using h.symm

/-- Settles O36: a single bit lies in one byte; in the frame of zeros bit 0 of `b3` and bit 0 of
`b4` cancel. -/
theorem everySingleBitFlipIsDetected : Obligations.EverySingleBitFlipIsDetected :=
  ⟨fun _ _ hk hok => frameOk_xor_of_oneByte hok (oneByte_twoPow hk),
    0, 0, 8, by decide, by decide, by decide, by decide⟩

/-! ### The end of a bit's high pulse (40_decoder_commands.md R115) -/

/-- Before bit 39 the next separator begins. -/
theorem bitReceived_next {p : Params} {n : BitVec 15} {d : Dec} (h : d.bitcnt ≠ 39) :
    bitReceived p n d =
      { d with
        shreg := shiftIn d.shreg (symbolBit p n), bitcnt := d.bitcnt + 1,
        phase := .bitLow, cnt := 1 } := if_neg h

theorem bitcnt_ne_of_lt {c : BitVec 6} (h : c.toNat < 39) : c ≠ 39 := by
  rintro rfl
  exact absurd h (by decide)

/-- Settles O26: a wait for the end of the level 1, which hands the bit on. -/
theorem highPulseEndShiftsTheBitIn : Obligations.HighPulseEndShiftsTheBitIn := by
  intro s hl hr hp
  obtain ⟨hended, hcounts, htimedOut⟩ :=
    step_wait true .highPulseTimeout hl hr (hp.trans_ne (by decide)) (decStep_bitHigh hp)
  refine ⟨fun hline hbit => ?_, hcounts, htimedOut⟩
  obtain ⟨t, ht, hdec⟩ := hended hline
  have hnext := hdec.trans (bitReceived_next (bitcnt_ne_of_lt hbit))
  rw [shiftIn_symbolBit] at hnext
  exact ⟨t, ht, hnext⟩

/-! ### The five waits as one (40_decoder_commands.md R110 to R115) -/

/-- The decoder after the sample that ends the level its phase waits out. The phases that wait for
nothing have no such sample, and stand still here. -/
def pulseEnd (p : Params) (d : Dec) : Dec :=
  match d.phase with
  | .ackW0 => { d with phase := .ackW1, cnt := 1, doneEvt := false }
  | .ackW1 => { d with phase := .ackW2, cnt := 1, doneEvt := false }
  | .ackW2 => { d with phase := .bitLow, cnt := 1, doneEvt := false }
  | .bitLow => { d with phase := .bitHigh, cnt := 1, doneEvt := false }
  | .bitHigh => bitReceived p d.cnt { d with doneEvt := false }
  | .idle | .startLow | .startHigh => d

section
variable {p : Params} {lv : Bool} {d : Dec}

theorem pulseEnd_ackW0 (h : d.phase = .ackW0) :
    pulseEnd p d = { d with phase := .ackW1, cnt := 1, doneEvt := false } := by
  simp [pulseEnd, h]
theorem pulseEnd_ackW1 (h : d.phase = .ackW1) :
    pulseEnd p d = { d with phase := .ackW2, cnt := 1, doneEvt := false } := by
  simp [pulseEnd, h]
theorem pulseEnd_ackW2 (h : d.phase = .ackW2) :
    pulseEnd p d = { d with phase := .bitLow, cnt := 1, doneEvt := false } := by
  simp [pulseEnd, h]
theorem pulseEnd_bitLow (h : d.phase = .bitLow) :
    pulseEnd p d = { d with phase := .bitHigh, cnt := 1, doneEvt := false } := by
  simp [pulseEnd, h]
theorem pulseEnd_bitHigh (h : d.phase = .bitHigh) :
    pulseEnd p d = bitReceived p d.cnt { d with doneEvt := false } := by
  simp [pulseEnd, h]

/-- The tick of a waiting phase: its level, its error and its end go with the phase. -/
theorem decStep_eq_wait (line : Bool) {q : Phase} (hp : d.phase = q)
    (h : awaitedLevel q = some lv) :
    decStep p line d =
      wait p line lv (waitError q) (fun _ => pulseEnd p d) { d with doneEvt := false } := by
  cases q with
  | idle => cases h
  | startLow => cases h
  | startHigh => cases h
  | ackW0 => cases h; rw [pulseEnd_ackW0 hp]; exact decStep_ackW0 hp
  | ackW1 => cases h; rw [pulseEnd_ackW1 hp]; exact decStep_ackW1 hp
  | ackW2 => cases h; rw [pulseEnd_ackW2 hp]; exact decStep_ackW2 hp
  | bitLow => cases h; rw [pulseEnd_bitLow hp]; exact decStep_bitLow hp
  | bitHigh => cases h; rw [pulseEnd_bitHigh hp]; exact decStep_bitHigh hp

theorem decStep_pulseEnd (h : awaitedLevel d.phase = some lv) :
    decStep p (!lv) d = pulseEnd p d :=
  (decStep_eq_wait _ rfl h).trans (wait_ended (Bool.not_ne_self lv))

theorem decStep_counts (h : awaitedLevel d.phase = some lv) (hc : d.cnt.toNat < p.timeoutTicks) :
    decStep p lv d = { d with cnt := d.cnt + 1, doneEvt := false } :=
  (decStep_eq_wait _ rfl h).trans (wait_counts hc)

theorem decStep_timesOut (h : awaitedLevel d.phase = some lv)
    (hc : p.timeoutTicks ≤ d.cnt.toNat) : decStep p lv d = raiseError (waitError d.phase) d :=
  (decStep_eq_wait _ rfl h).trans (wait_timedOut hc)

/-- The three ways a waiting phase's tick can go. -/
theorem decStep_cases_of_awaited (p : Params) (line : Bool) (h : awaitedLevel d.phase = some lv) :
    (line = !lv ∧ decStep p line d = pulseEnd p d) ∨
    (line = lv ∧ p.timeoutTicks ≤ d.cnt.toNat ∧
      decStep p line d = raiseError (waitError d.phase) d) ∨
    (line = lv ∧ d.cnt.toNat < p.timeoutTicks ∧
      decStep p line d = { d with cnt := d.cnt + 1, doneEvt := false }) := by
  by_cases hline : line = !lv
  · exact .inl ⟨hline, hline ▸ decStep_pulseEnd h⟩
  · obtain rfl : line = lv := by simpa using hline
    rcases Nat.lt_or_ge d.cnt.toNat p.timeoutTicks with hc | hc
    · exact .inr (.inr ⟨rfl, hc, decStep_counts h hc⟩)
    · exact .inr (.inl ⟨rfl, hc, decStep_timesOut h hc⟩)

end

/-! ### The phase after one tick (40_decoder_commands.md R117) -/

/-- Where a wait goes: on, to `IDLE` by its error, or nowhere. -/
theorem decStep_phase_of_awaited (p : Params) (line : Bool) {lv : Bool} {d : Dec} {q : Phase}
    (hp : d.phase = q) (h : awaitedLevel q = some lv) :
    (decStep p line d).phase =
      if line = !lv then (pulseEnd p d).phase
      else if p.timeoutTicks ≤ d.cnt.toNat then .idle else q := by
  subst hp
  rcases decStep_cases_of_awaited p line h with ⟨rfl, he⟩ | ⟨rfl, hc, he⟩ | ⟨rfl, hc, he⟩
  · rw [he, if_pos rfl]
  · simp [he, hc]
  · simp [he, Nat.not_le.mpr hc]

/-- Where the end of a high pulse goes: to the next separator, or to `IDLE` after bit 39. -/
theorem bitReceived_phase (p : Params) (n : BitVec 15) {d : Dec} (h : d.bitcnt.toNat ≤ 39) :
    (bitReceived p n d).phase = if d.bitcnt.toNat < 39 then .bitLow else .idle := by
  rcases bitReceived_cases p n d with ⟨hlast, he⟩ | ⟨hne, he⟩
  · have hphase := (completed_completeFrame (shiftIn d.shreg (symbolBit p n)) d).1
    rw [he, hphase, hlast]
    rfl
  · have hlt : d.bitcnt.toNat < 39 := by bv_omega
    rw [he, if_pos hlt]

/-- Where `START_LOW` goes. -/
theorem startLowTick_phase (p : Params) (d : Dec) :
    (startLowTick p d).phase = if p.startLowTicks - 1 ≤ d.cnt.toNat then .startHigh else d.phase :=
  apply_ite Dec.phase _ _ _

/-- Where `START_HIGH` goes. -/
theorem startHighTick_phase (p : Params) (d : Dec) :
    (startHighTick p d).phase =
      if p.startHighTicks - 1 ≤ d.cnt.toNat then (if d.chain = true then .ackW0 else .idle)
      else d.phase := by
  rw [startHighTick, apply_ite Dec.phase, apply_ite Dec.phase, completePulse_phase]

/-- Where `IDLE` goes: only a decoder command leaves it. -/
theorem tickDec_phase_of_idle {s : State} (hr : (inputs s).rst = false) (hp : s.dec.phase = .idle) :
    (tickDec s).phase =
      if fetchCommand s = some .startPulse ∨ fetchCommand s = some .acquire then .startLow
      else if fetchCommand s = some .readFrame then .ackW0 else .idle := by
  cases hf : fetchCommand s with
  | none => simp [tickDec_idle hr hp (hf ▸ rfl), hp]
  | some i =>
    cases i with
    | nop => simp [tickDec_idle hr hp (hf ▸ rfl), hp]
    | btnAck => simp [tickDec_idle hr hp (hf ▸ rfl), hp]
    | startPulse => simp [tickDec_accepts hr hp hf rfl]
    | readFrame => simp [tickDec_accepts hr hp hf rfl]
    | acquire => simp [tickDec_accepts hr hp hf rfl]

/-- Settles O21: one rule for `IDLE`, two for the wake pulse, one for the five waits. -/
theorem phaseTransitionsAreTheTables : Obligations.PhaseTransitionsAreTheTables := by
  intro s t hr hbit hs
  obtain ⟨-, rfl⟩ := (step_next_iff s t).mp hs
  by_cases hidle : s.dec.phase = .idle
  · rw [hidle]
    exact tickDec_phase_of_idle hr hidle
  · rw [endTick_dec, tickDec_busy hr hidle]
    cases hp : s.dec.phase with
    | idle => exact absurd hp hidle
    | startLow => rw [decStep_startLow hp, startLowTick_phase, hp]
    | startHigh => rw [decStep_startHigh hp, startHighTick_phase, hp]
    | ackW0 => rw [decStep_phase_of_awaited _ _ hp rfl, pulseEnd_ackW0 hp]; rfl
    | ackW1 => rw [decStep_phase_of_awaited _ _ hp rfl, pulseEnd_ackW1 hp]; rfl
    | ackW2 => rw [decStep_phase_of_awaited _ _ hp rfl, pulseEnd_ackW2 hp]; rfl
    | bitLow => rw [decStep_phase_of_awaited _ _ hp rfl, pulseEnd_bitLow hp]; rfl
    | bitHigh =>
      rw [decStep_phase_of_awaited _ _ hp rfl, pulseEnd_bitHigh hp,
        bitReceived_phase _ _ (by exact hbit)]
      rfl

end Sys2Proof.Machine

/-! PROOFS. The family of the rules that cross the sections of the spec, part 3: the invariants of
10_state.md R36. -/

namespace Sys2Proof.Machine

/-! ### The invariants by sub-block, the decoder's by what it does -/

/-- The frame test, written as 10_state.md R36 (b) writes it. -/
theorem frameOk_iff_toNat (f : Frame) :
    frameOk f = true ↔ f.toNat % 256 =
      (f.toNat / 2 ^ 32 + f.toNat / 2 ^ 24 % 256 + f.toNat / 2 ^ 16 % 256 +
        f.toNat / 2 ^ 8 % 256) % 256 := by
  obtain ⟨-, hsum⟩ := checksumIsTheSumModulo256
  rw [hsum, byte0_toNat, byte1_toNat, byte2_toNat, byte3_toNat, byte4_toNat]

/-- The bound of `CNT` (10_state.md R36 (h)). -/
def cntBound (p : Params) : Nat :=
  max (max (p.startLowTicks - 1) (p.startHighTicks - 1)) p.timeoutTicks

/-- A decoder that rests, as the invariants have it: with no frame and no error, with a checked
frame, or with an error. -/
structure Resting (d : Dec) : Prop where
  phase : d.phase = .idle
  chain : d.chain = false
  cnt : d.cnt = 0
  bitcnt : d.bitcnt = 0
  doneEvt : d.doneEvt = true → d.done = true
  result :
    (d.valid = false ∧ d.err = 0) ∨
    (d.valid = true ∧ d.done = true ∧ d.err = 0 ∧ frameOk d.shreg = true) ∨
    (d.valid = false ∧ d.done = true ∧ d.shreg = 0 ∧ 1 ≤ d.err.toNat ∧ d.err.toNat ≤ 4)

/-- A decoder that executes a command, as the invariants have it. -/
structure Executing (p : Params) (d : Dec) : Prop where
  phase : d.phase ≠ .idle
  done : d.done = false
  valid : d.valid = false
  err : d.err = 0
  doneEvt : d.doneEvt = false
  bitcnt_le : d.bitcnt.toNat ≤ 39
  bitcnt_ne : d.bitcnt ≠ 0 → d.phase = .bitLow ∨ d.phase = .bitHigh
  cnt_le : d.cnt.toNat ≤ cntBound p
  cnt_pos : d.phase = .ackW1 ∨ d.phase = .ackW2 ∨ d.phase = .bitLow ∨ d.phase = .bitHigh →
    1 ≤ d.cnt.toNat

/-- The button controller as the invariants have it. -/
structure TimerRuns (p : Params) (b : Deb) : Prop where
  armed_iff : b.state = .armed ↔ b.cnt.toNat = 0
  suppressed_iff : b.state = .suppressed ↔ 1 ≤ b.cnt.toNat ∧ b.cnt.toNat ≤ p.debounceTicks
  actEvt : b.actEvt = true → b.pending = true ∧ b.state = .suppressed

/-- What the invariants say of a decoder in `IDLE`. -/
theorem resting_of_invariants {s : State} (h : Invariants s) (hp : s.dec.phase = .idle) :
    Resting s.dec := by
  obtain ⟨-, hvalid, herr, hidle, -, ⟨hdoneEvt, -⟩, -, -, -, hcode⟩ := h
  obtain ⟨hcnt, hbitcnt, hchain⟩ := hidle hp
  refine ⟨hp, hchain, hcnt, hbitcnt, hdoneEvt, ?_⟩
  by_cases he : s.dec.err = 0
  · cases hv : s.dec.valid with
    | false => exact .inl ⟨rfl, he⟩
    | true =>
      obtain ⟨hd, -, -, hsum⟩ := hvalid hv
      exact .inr (.inl ⟨rfl, hd, he, (frameOk_iff_toNat _).mpr hsum⟩)
  · obtain ⟨hd, hv, hf, -⟩ := herr he
    exact .inr (.inr ⟨hv, hd, hf, by bv_omega, hcode⟩)

/-- What the invariants say of a busy decoder. -/
theorem executing_of_invariants {s : State} (h : Invariants s) (hp : s.dec.phase ≠ .idle) :
    Executing s.cfg s.dec := by
  obtain ⟨-, -, -, -, hbusy, -, ⟨hle, hne⟩, hcnt, hwait, -⟩ := h
  obtain ⟨hd, hv, he, hevt⟩ := hbusy hp
  exact ⟨hp, hd, hv, he, hevt, hle, hne, hcnt, hwait⟩

theorem timerRuns_of_invariants {s : State} (h : Invariants s) : TimerRuns s.cfg s.deb := by
  obtain ⟨⟨harmed, hsuppressed⟩, -, -, -, -, ⟨-, hactEvt⟩, -⟩ := h
  exact ⟨harmed, hsuppressed, hactEvt⟩

theorem invariants_of_resting {s : State} (h : Resting s.dec) (ht : TimerRuns s.cfg s.deb) :
    Invariants s := by
  obtain ⟨hp, hchain, hcnt, hbitcnt, hdoneEvt, hresult⟩ := h
  have hvalid : InvValid s := fun hv => by
    rcases hresult with ⟨hf, -⟩ | ⟨-, hd, he, hok⟩ | ⟨hf, -⟩
    · exact absurd hv (Bool.eq_false_iff.mp hf)
    · exact ⟨hd, he, hp, (frameOk_iff_toNat _).mp hok⟩
    · exact absurd hv (Bool.eq_false_iff.mp hf)
  have herr : InvErr s := fun hne => by
    rcases hresult with ⟨-, he⟩ | ⟨-, -, he, -⟩ | ⟨hv, hd, hf, -⟩
    · exact absurd he hne
    · exact absurd he hne
    · exact ⟨hd, hv, hf, hp⟩
  have hcode : InvErrCode s := by
    rcases hresult with ⟨-, he⟩ | ⟨-, -, he, -⟩ | ⟨-, -, -, -, hmax⟩
    · simp [InvErrCode, he]
    · simp [InvErrCode, he]
    · exact hmax
  exact ⟨⟨ht.armed_iff, ht.suppressed_iff⟩, hvalid, herr, fun _ => ⟨hcnt, hbitcnt, hchain⟩,
    fun hne => absurd hp hne, ⟨hdoneEvt, ht.actEvt⟩, by simp [InvBitcnt, hbitcnt],
    by simp [InvCnt, hcnt], by simp [InvWait, hp], hcode⟩

theorem invariants_of_executing {s : State} (h : Executing s.cfg s.dec)
    (ht : TimerRuns s.cfg s.deb) : Invariants s :=
  ⟨⟨ht.armed_iff, ht.suppressed_iff⟩, by simp [InvValid, h.valid], by simp [InvErr, h.err],
    fun hp => absurd hp h.phase, fun _ => ⟨h.done, h.valid, h.err, h.doneEvt⟩,
    ⟨by simp [h.doneEvt], ht.actEvt⟩, ⟨h.bitcnt_le, h.bitcnt_ne⟩, h.cnt_le, h.cnt_pos,
    by simp [InvErrCode, h.err]⟩

/-- The invariants speak of a decoder that rests or executes, and of the button controller. -/
theorem invariants_iff (s : State) :
    Invariants s ↔ (Resting s.dec ∨ Executing s.cfg s.dec) ∧ TimerRuns s.cfg s.deb := by
  refine ⟨fun h => ⟨?_, timerRuns_of_invariants h⟩, fun ⟨hdec, ht⟩ => ?_⟩
  · by_cases hp : s.dec.phase = .idle
    · exact .inl (resting_of_invariants h hp)
    · exact .inr (executing_of_invariants h hp)
  · exact hdec.elim (invariants_of_resting · ht) (invariants_of_executing · ht)

/-! ### What the decoder's operations leave -/

theorem resting_reset : Resting Dec.reset :=
  ⟨rfl, rfl, rfl, rfl, nofun, .inl ⟨rfl, rfl⟩⟩

theorem errCode_range (e : DecodeError) : 1 ≤ (errCode e).toNat ∧ (errCode e).toNat ≤ 4 := by
  cases e <;> decide

theorem resting_raiseError (e : DecodeError) (d : Dec) : Resting (raiseError e d) :=
  ⟨rfl, rfl, rfl, rfl, fun _ => rfl, .inr (.inr ⟨rfl, rfl, rfl, errCode_range e⟩)⟩

theorem resting_completeFrame (f : Frame) (d : Dec) : Resting (completeFrame f d) := by
  rcases completeFrame_cases f d with ⟨hok, h⟩ | ⟨-, h⟩ <;> rw [h]
  · exact ⟨rfl, rfl, rfl, rfl, fun _ => rfl, .inr (.inl ⟨rfl, rfl, rfl, hok⟩)⟩
  · exact resting_raiseError _ d

/-- A resting decoder stays at rest when its pulse ends. -/
theorem Resting.clear_doneEvt {d : Dec} (h : Resting d) : Resting { d with doneEvt := false } :=
  ⟨h.phase, h.chain, h.cnt, h.bitcnt, nofun, h.result⟩

theorem executing_accept (p : Params) {q : Phase} (c : Bool) (d : Dec)
    (hq : q = .startLow ∨ q = .ackW0) : Executing p (accept q c d) := by
  have hbusy : q ≠ .idle := by rintro rfl; simp at hq
  refine ⟨hbusy, rfl, rfl, rfl, rfl, Nat.zero_le _, fun h => absurd rfl h, Nat.zero_le _,
    fun h => ?_⟩
  rcases hq with rfl | rfl <;> simp at h

theorem timeoutTicks_le_cntBound (p : Params) : p.timeoutTicks ≤ cntBound p := le_max_right _ _

namespace Executing
variable {p : Params} {d : Dec}

/-- A command goes on in another phase with another count, or has shifted a bit in. -/
theorem goTo (h : Executing p d) {q : Phase} {c : BitVec 15} {k : BitVec 6} (f : Frame)
    (hq : q ≠ .idle) (hk : k.toNat ≤ 39) (hkq : k ≠ 0 → q = .bitLow ∨ q = .bitHigh)
    (hpos : 1 ≤ c.toNat ∨ (q = .startLow ∨ q = .startHigh ∨ q = .ackW0))
    (hle : c.toNat ≤ cntBound p) :
    Executing p { d with phase := q, cnt := c, bitcnt := k, shreg := f, doneEvt := false } := by
  refine ⟨hq, h.done, h.valid, h.err, rfl, hk, hkq, hle, fun hwait => hpos.resolve_right ?_⟩
  rintro (rfl | rfl | rfl) <;> simp at hwait

/-- A tick that only counts. -/
theorem counts (h : Executing p d) (hl : p.Legal) (hc : d.cnt.toNat < cntBound p) :
    Executing p { d with cnt := d.cnt + 1, doneEvt := false } := by
  have hbound : cntBound p ≤ 32767 := by unfold cntBound; omega
  have hcnt : (d.cnt + 1).toNat = d.cnt.toNat + 1 := by bv_omega
  exact h.goTo d.shreg h.phase h.bitcnt_le h.bitcnt_ne (.inl (by omega)) (by omega)

/-- Outside the bits of a frame no bit is counted. -/
theorem bitcnt_eq_zero (h : Executing p d) (hlow : d.phase ≠ .bitLow) (hhigh : d.phase ≠ .bitHigh) :
    d.bitcnt = 0 := by
  by_contra hne
  exact (h.bitcnt_ne hne).elim hlow hhigh

/-- The first sample of the next pulse. -/
theorem nextWait (h : Executing p d) (hl : p.Legal) {q : Phase} (hq : q ≠ .idle)
    (hbit : d.bitcnt = 0 ∨ q = .bitLow ∨ q = .bitHigh) :
    Executing p { d with phase := q, cnt := 1, doneEvt := false } := by
  have hbound := timeoutTicks_le_cntBound p
  exact h.goTo d.shreg hq h.bitcnt_le hbit.resolve_left (.inl (by decide)) (by simp; omega)

/-- The end of a bit's high pulse, in its tick. -/
theorem bitReceived_keeps (h : Executing p d) (hl : p.Legal) (n : BitVec 15) :
    Resting (bitReceived p n { d with doneEvt := false }) ∨
      Executing p (bitReceived p n { d with doneEvt := false }) := by
  have hbound := timeoutTicks_le_cntBound p
  rcases bitReceived_cases p n { d with doneEvt := false } with ⟨-, he⟩ | ⟨hne, he⟩ <;> rw [he]
  · exact .inl (resting_completeFrame _ _)
  · have hk : (d.bitcnt + 1).toNat ≤ 39 := by
      have hle := h.bitcnt_le
      have hne' : d.bitcnt ≠ 39 := hne
      bv_omega
    exact .inr (h.goTo _ nofun hk (fun _ => .inl rfl) (.inl (by decide)) (by simp; omega))

/-- Each wait ends in the next, the last one after 40 bits in a completion. -/
theorem pulseEnd_keeps (h : Executing p d) (hl : p.Legal) :
    Resting (pulseEnd p d) ∨ Executing p (pulseEnd p d) := by
  cases hp : d.phase with
  | idle => exact absurd hp h.phase
  | startLow => right; simpa [pulseEnd, hp] using h
  | startHigh => right; simpa [pulseEnd, hp] using h
  | ackW0 =>
    rw [pulseEnd_ackW0 hp]
    exact .inr (h.nextWait hl nofun (.inl (h.bitcnt_eq_zero (by simp [hp]) (by simp [hp]))))
  | ackW1 =>
    rw [pulseEnd_ackW1 hp]
    exact .inr (h.nextWait hl nofun (.inl (h.bitcnt_eq_zero (by simp [hp]) (by simp [hp]))))
  | ackW2 => rw [pulseEnd_ackW2 hp]; exact .inr (h.nextWait hl nofun (.inr (.inl rfl)))
  | bitLow => rw [pulseEnd_bitLow hp]; exact .inr (h.nextWait hl nofun (.inr (.inr rfl)))
  | bitHigh => rw [pulseEnd_bitHigh hp]; exact h.bitReceived_keeps hl _

theorem awaited_keeps (h : Executing p d) (hl : p.Legal) (line : Bool) {lv : Bool}
    (hlv : awaitedLevel d.phase = some lv) :
    Resting (decStep p line d) ∨ Executing p (decStep p line d) := by
  have hbound := timeoutTicks_le_cntBound p
  rcases decStep_cases_of_awaited p line hlv with ⟨-, he⟩ | ⟨-, -, he⟩ | ⟨-, hc, he⟩ <;> rw [he]
  · exact h.pulseEnd_keeps hl
  · exact .inl (resting_raiseError _ d)
  · exact .inr (h.counts hl (by omega))

theorem startLow_keeps (h : Executing p d) (hl : p.Legal) (hp : d.phase = .startLow) (line : Bool) :
    Executing p (decStep p line d) := by
  have hzero := h.bitcnt_eq_zero (by simp [hp]) (by simp [hp])
  rw [dwells_startLow p line d hp]
  split
  · exact h.goTo d.shreg nofun h.bitcnt_le (fun h => absurd hzero h) (by simp) (Nat.zero_le _)
  · exact h.counts hl (by unfold cntBound; omega)

theorem startHigh_keeps (h : Executing p d) (hl : p.Legal) (hp : d.phase = .startHigh)
    (line : Bool) :
    Resting (decStep p line d) ∨ Executing p (decStep p line d) := by
  have hzero := h.bitcnt_eq_zero (by simp [hp]) (by simp [hp])
  rw [dwells_startHigh p line d hp]
  split
  · beta_reduce
    split
    · exact .inr
        (h.goTo d.shreg nofun h.bitcnt_le (fun h => absurd hzero h) (by simp) (Nat.zero_le _))
    · exact .inl ⟨rfl, Bool.eq_false_iff.mpr ‹_›, rfl, hzero, fun _ => rfl, .inl ⟨h.valid, h.err⟩⟩
  · exact .inr (h.counts hl (by unfold cntBound; omega))

/-- A tick of an executing decoder leaves it executing or at rest. -/
theorem decStep_keeps (h : Executing p d) (hl : p.Legal) (line : Bool) :
    Resting (decStep p line d) ∨ Executing p (decStep p line d) := by
  cases hp : d.phase with
  | idle => exact absurd hp h.phase
  | startLow => exact .inr (h.startLow_keeps hl hp line)
  | startHigh => exact h.startHigh_keeps hl hp line
  | ackW0 => exact h.awaited_keeps hl line (lv := true) (hp ▸ rfl)
  | ackW1 => exact h.awaited_keeps hl line (lv := false) (hp ▸ rfl)
  | ackW2 => exact h.awaited_keeps hl line (lv := true) (hp ▸ rfl)
  | bitLow => exact h.awaited_keeps hl line (lv := false) (hp ▸ rfl)
  | bitHigh => exact h.awaited_keeps hl line (lv := true) (hp ▸ rfl)

end Executing

/-! ### Every tick keeps the invariants -/

/-- A resting decoder goes on resting, or accepts a decoder command. -/
theorem Resting.tickDec_keeps {s : State} (h : Resting s.dec) (hr : (inputs s).rst = false) :
    Resting (tickDec s) ∨ Executing s.cfg (tickDec s) := by
  cases hc : isDecoderCommand (fetchCommand s) with
  | false =>
    rw [tickDec_idle hr h.phase hc]
    exact .inl h.clear_doneEvt
  | true =>
    cases hf : fetchCommand s with
    | none => rw [hf] at hc; cases hc
    | some i =>
      rw [tickDec_accepts hr h.phase hf (hf ▸ hc)]
      refine .inr (executing_accept s.cfg _ _ ?_)
      split
      · exact .inr rfl
      · exact .inl rfl

/-- A tick keeps the decoder's invariants. -/
theorem tickDec_keeps {s : State} (hl : s.cfg.Legal) (h : Resting s.dec ∨ Executing s.cfg s.dec) :
    Resting (tickDec s) ∨ Executing s.cfg (tickDec s) := by
  cases hr : (inputs s).rst with
  | true => rw [tickDec_reset hr]; exact .inl resting_reset
  | false =>
    rcases h with h | h
    · exact h.tickDec_keeps hr
    · rw [tickDec_busy hr h.phase]
      exact h.decStep_keeps hl _

theorem timerRuns_reset (p : Params) : TimerRuns p Deb.reset :=
  ⟨by decide, by simp [Deb.reset], nofun⟩

/-- A step of the button controller keeps its invariants: an activation loads the timer, an expiry
ends it, and in between it only counts. -/
theorem TimerRuns.debStep_keeps {p : Params} {b : Deb} (h : TimerRuns p b) (hl : p.Legal)
    (btn ack : Bool) :
    TimerRuns p (debStep p btn ack b) := by
  rcases debStep_cases p btn ack b with ⟨-, -, he⟩ | ⟨-, -, he⟩ | ⟨-, -, he⟩ | ⟨hs, hc, he⟩ <;>
    rw [he]
  · have hload : (activate p (debDefaults btn ack b)).cnt.toNat = p.debounceTicks :=
      debounceTicks_toNat hl
    exact ⟨by rw [hload]; simp; omega, by rw [hload]; simp; omega, fun _ => ⟨rfl, rfl⟩⟩
  · exact ⟨h.armed_iff, h.suppressed_iff, nofun⟩
  · exact ⟨by simp, by simp, nofun⟩
  · have hdec : (b.cnt - 1).toNat = b.cnt.toNat - 1 := by bv_omega
    obtain ⟨-, hmax⟩ := h.suppressed_iff.mp hs
    refine ⟨?_, ?_, nofun⟩
    · simp only [debDefaults_state, hs, hdec, reduceCtorEq, false_iff]
      omega
    · simp only [debDefaults_state, hs, hdec, true_iff]
      omega

/-- A tick keeps the button controller's invariants. -/
theorem tickDeb_keeps {s : State} (hl : s.cfg.Legal) (h : TimerRuns s.cfg s.deb) :
    TimerRuns s.cfg (tickDeb s) := by
  cases hr : (inputs s).rst with
  | true => rw [tickDeb_reset hr]; exact timerRuns_reset _
  | false => rw [tickDeb_of_no_reset hr]; exact h.debStep_keeps hl _ _

/-- Settles O55: a step that goes on updates each sub-block, and each update keeps its part. -/
theorem everyTickKeepsTheInvariants : Obligations.EveryTickKeepsTheInvariants := by
  intro s t hinv hs
  obtain ⟨hl, rfl⟩ := (step_next_iff s t).mp hs
  obtain ⟨hdec, hdeb⟩ := (invariants_iff s).mp hinv
  exact (invariants_iff _).mpr ⟨tickDec_keeps hl hdec, tickDeb_keeps hl hdeb⟩

/-- Settles O54: after reset the decoder rests and the timer stands. -/
theorem invariantsHoldAfterReset : Obligations.InvariantsHoldAfterReset := by
  have hreset (p : Params) : Invariants (State.resetWith p) :=
    (invariants_iff _).mpr ⟨.inl resting_reset, timerRuns_reset p⟩
  exact ⟨hreset Config.params, hreset⟩

/-! ### The values of `STATUS` (10_state.md R39) -/

/-- Bit 7 of `STATUS` is the field `VARIANT`. -/
theorem statusWord_getLsbD_seven (v : Variant) (d : Dec) :
    (statusWord v d).getLsbD 7 = variantBit v := by
  have herr := d.err.isLt
  have hvalid := Bool.toNat_lt d.valid
  have hdone := Bool.toNat_lt d.done
  have hbusy := Bool.toNat_lt (busy d)
  rw [BitVec.getLsbD, statusWord_toNat, Nat.testBit_eq_decide_div_mod_eq]
  cases variantBit v <;> simp <;> omega

/-- Settles O15: 1 while a command executes; at rest 0 or 2 without a result, 6 with a frame, and 2
with an error's code above it. -/
theorem statusReadsOneOfEightValues : Obligations.StatusReadsOneOfEightValues := by
  intro s hinv
  obtain ⟨hdec, -⟩ := (invariants_iff s).mp hinv
  refine ⟨?_, by rw [regValue_status, statusWord_getLsbD_seven, variantBit_eq_true_iff]⟩
  have hfields (v e a b c : Nat) : v + e + a + b + c - v = e + a + b + c := by omega
  rw [regValue_status_toNat, hfields]
  rcases hdec with h | h
  · rcases h.result with ⟨hv, he⟩ | ⟨hv, hd, he, -⟩ | ⟨hv, hd, -, hmin, hmax⟩
    · cases s.dec.done <;> simp [hv, he, h.phase]
    · simp [hv, he, hd, h.phase]
    · simp [hv, hd, h.phase]
      omega
  · simp [h.valid, h.done, h.err, h.phase]

end Sys2Proof.Machine

/-! PROOFS. The family of the rules that cross the sections of the spec, part 4: a command of the
decoder from its write to its end. -/

namespace Sys2Proof.Machine

/-! ### Runs, cut at a tick -/

theorem after_add (j k : Nat) (s : State) : after (j + k) s = after k (after j s) := by
  induction k with
  | zero => rfl
  | succ k ih => rw [← Nat.add_assoc, after, ih]; rfl

theorem noReset_after {s : State} {n j k : Nat} (h : NoReset s n) (hn : j + k ≤ n) :
    NoReset (after j s) k := by
  intro i hi
  rw [inputsAt_after]
  exact h _ (by omega)

/-- A busy decoder shows no pulse, once a tick has passed (40_decoder_commands.md R119). -/
theorem after_doneEvt_of_busy {s : State} {k : Nat} (hk : 1 ≤ k)
    (hp : (after k s).dec.phase ≠ .idle) : (after k s).dec.doneEvt = false := by
  obtain ⟨j, rfl⟩ := Nat.exists_eq_add_of_le' hk
  obtain ⟨hiff, -⟩ := tickDec_doneEvt (after j s)
  refine Bool.eq_false_iff.mpr fun hevt => ?_
  obtain ⟨-, -, hidle⟩ := hiff.mp hevt
  exact hp hidle

/-- The decoder one tick after the write of a decoder command in `IDLE`. -/
theorem after_accepts {s : State} {i : Instr} {n : Nat} (hr : NoReset s (n + 1))
    (hp : s.dec.phase = .idle) (hf : decodeAccess (inputs s).host = some i)
    (hc : isDecoderCommand (some i) = true) :
    (after 1 s).dec =
      accept (if i = .readFrame then .ackW0 else .startLow) (decide (i = .acquire)) s.dec :=
  tickDec_accepts (hr 0 (Nat.succ_pos n)) hp hf hc

/-! ### The wake pulse from its first tick (40_decoder_commands.md R102, R104) -/

namespace Counted
variable {n : Nat} {d d' : Dec}

theorem done_eq (h : Counted n d d') : d'.done = d.done := by rw [h]

theorem cnt_toNat_add (h : Counted n d d') (hn : d.cnt.toNat + n < 2 ^ 15) :
    d'.cnt.toNat = d.cnt.toNat + n := by
  rw [h, BitVec.toNat_add, BitVec.toNat_ofNat]
  omega

end Counted

section
variable {u : State} {c : Bool} {d : Dec}

/-- Its low part. -/
theorem wakePulse_low (hl : u.cfg.Legal) (hu : u.dec = accept .startLow c d)
    (hr : NoReset u (u.cfg.startLowTicks + u.cfg.startHighTicks)) {k : Nat}
    (hk : k < u.cfg.startLowTicks) :
    (after k u).dec.phase = .startLow ∧ (after k u).dec.done = false := by
  have ⟨⟨_, hmax⟩, _⟩ := hl
  have hp : u.dec.phase = .startLow := congrArg Dec.phase hu
  have hcnt : Counted k u.dec (after k u).dec :=
    (hp ▸ dwells_startLow u.cfg).counted hmax (hp.trans_ne (by decide)) (congrArg Dec.cnt hu) hk
      fun j hj => hr j (by omega)
  exact ⟨hcnt.phase_eq.trans hp, hcnt.done_eq.trans (congrArg Dec.done hu)⟩

/-- The decoder where its high part begins. -/
theorem wakePulse_middle (hl : u.cfg.Legal) (hu : u.dec = accept .startLow c d)
    (hr : NoReset u (u.cfg.startLowTicks + u.cfg.startHighTicks)) :
    (after u.cfg.startLowTicks u).dec = accept .startHigh c d := by
  have hrlow : NoReset u u.cfg.startLowTicks := fun j hj => hr j (by omega)
  rw [after_startLow hl (congrArg Dec.phase hu) (congrArg Dec.cnt hu) hrlow, hu]
  rfl

/-- Its high part. -/
theorem wakePulse_high (hl : u.cfg.Legal) (hu : u.dec = accept .startLow c d)
    (hr : NoReset u (u.cfg.startLowTicks + u.cfg.startHighTicks)) {k : Nat}
    (hk : k < u.cfg.startHighTicks) :
    (after (u.cfg.startLowTicks + k) u).dec.phase = .startHigh ∧
      (after (u.cfg.startLowTicks + k) u).dec.done = false := by
  have ⟨_, ⟨_, hmax⟩, _⟩ := hl
  rw [after_add]
  have hv := wakePulse_middle hl hu hr
  have hrv := noReset_after (j := u.cfg.startLowTicks) (k := k) hr (by omega)
  generalize hveq : after u.cfg.startLowTicks u = v at hv hrv ⊢
  have hcfg : v.cfg = u.cfg := hveq ▸ after_cfg _ u
  have hp : v.dec.phase = .startHigh := congrArg Dec.phase hv
  have hcnt : Counted k v.dec (after k v).dec :=
    (hp ▸ dwells_startHigh v.cfg).counted (hcfg ▸ hmax) (hp.trans_ne (by decide))
      (congrArg Dec.cnt hv) (hcfg ▸ hk) hrv
  exact ⟨hcnt.phase_eq.trans hp, hcnt.done_eq.trans (congrArg Dec.done hv)⟩

/-- The decoder where the line is released. -/
theorem wakePulse_end (hl : u.cfg.Legal) (hu : u.dec = accept .startLow c d)
    (hr : NoReset u (u.cfg.startLowTicks + u.cfg.startHighTicks)) :
    (after (u.cfg.startLowTicks + u.cfg.startHighTicks) u).dec =
      if c = true then accept .ackW0 c d else completePulse (accept .startLow c d) := by
  have hv := wakePulse_middle hl hu hr
  have hrv := noReset_after (j := u.cfg.startLowTicks) (k := u.cfg.startHighTicks) hr le_rfl
  have hend := after_startHigh (s := after u.cfg.startLowTicks u) (by rwa [after_cfg])
    (congrArg Dec.phase hv) (congrArg Dec.cnt hv) (by rwa [after_cfg])
  rw [after_cfg] at hend
  rw [after_add, hend, hv]
  rfl

end

/-- What a command that begins with the wake pulse drives, from its write in `IDLE`. -/
theorem wakePulse_drives {s : State} {c : Bool} (hl : s.cfg.Legal)
    (hu : (after 1 s).dec = accept .startLow c s.dec)
    (hr : NoReset s (s.cfg.startLowTicks + s.cfg.startHighTicks + 1)) {k : Nat} (hk : 1 ≤ k)
    (hk' : k ≤ s.cfg.startLowTicks + s.cfg.startHighTicks) :
    (after k s).dec.phase = (if k ≤ s.cfg.startLowTicks then .startLow else .startHigh) ∧
      (after k s).dec.done = false ∧ (after k s).dec.doneEvt = false := by
  have hru : NoReset (after 1 s) (s.cfg.startLowTicks + s.cfg.startHighTicks) :=
    noReset_after hr (by omega)
  have hlevel :
      (after k s).dec.phase = (if k ≤ s.cfg.startLowTicks then .startLow else .startHigh) ∧
        (after k s).dec.done = false := by
    split
    · obtain ⟨m, rfl⟩ := Nat.exists_eq_add_of_le hk
      rw [after_add]
      exact wakePulse_low (u := after 1 s) hl hu hru (by rw [after_cfg]; omega)
    · obtain ⟨m, rfl⟩ : ∃ m, k = 1 + (s.cfg.startLowTicks + m) :=
        ⟨k - 1 - s.cfg.startLowTicks, by omega⟩
      rw [after_add]
      exact wakePulse_high (u := after 1 s) hl hu hru (by rw [after_cfg]; omega)
  obtain ⟨hphase, hdone⟩ := hlevel
  refine ⟨hphase, hdone, after_doneEvt_of_busy hk ?_⟩
  rw [hphase]
  split <;> decide

/-- What it leaves when the line is released. -/
theorem wakePulse_releases {s : State} {c : Bool} (hl : s.cfg.Legal)
    (hu : (after 1 s).dec = accept .startLow c s.dec)
    (hr : NoReset s (s.cfg.startLowTicks + s.cfg.startHighTicks + 1)) :
    (after (s.cfg.startLowTicks + s.cfg.startHighTicks + 1) s).dec =
      if c = true then accept .ackW0 c s.dec else completePulse (accept .startLow c s.dec) := by
  rw [Nat.add_comm _ 1, after_add]
  exact wakePulse_end (u := after 1 s) hl hu (noReset_after hr (by rw [after_cfg]; omega))

/-- The ports in the low part of the wake pulse. -/
theorem line_of_startLow {s : State} (h : s.dec.phase = .startLow) :
    lineOe s = true ∧ lineOut s = false := by
  simp [lineOe, lineOut, h]

/-- The ports in its high part. -/
theorem line_of_startHigh {s : State} (h : s.dec.phase = .startHigh) :
    lineOe s = true ∧ lineOut s = true := by
  simp [lineOe, lineOut, h]

section
variable {s : State} {c : Bool} {k : Nat}

/-- A command's wake pulse at the ports: first the line is driven low. -/
theorem wakePulse_ports_low (hl : s.cfg.Legal) (hu : (after 1 s).dec = accept .startLow c s.dec)
    (hr : NoReset s (s.cfg.startLowTicks + s.cfg.startHighTicks + 1)) (hk : 1 ≤ k)
    (hlow : k ≤ s.cfg.startLowTicks) :
    (lineOe (after k s) = true ∧ lineOut (after k s) = false) ∧
      (after k s).dec.done = false ∧ (after k s).dec.doneEvt = false := by
  obtain ⟨hphase, hflags⟩ := wakePulse_drives hl hu hr hk (by omega)
  exact ⟨line_of_startLow (hphase.trans (if_pos hlow)), hflags⟩

/-- Then it is driven high. -/
theorem wakePulse_ports_high (hl : s.cfg.Legal) (hu : (after 1 s).dec = accept .startLow c s.dec)
    (hr : NoReset s (s.cfg.startLowTicks + s.cfg.startHighTicks + 1))
    (hlow : s.cfg.startLowTicks < k) (hhigh : k ≤ s.cfg.startLowTicks + s.cfg.startHighTicks) :
    (lineOe (after k s) = true ∧ lineOut (after k s) = true) ∧
      (after k s).dec.done = false ∧ (after k s).dec.doneEvt = false := by
  obtain ⟨hphase, hflags⟩ := wakePulse_drives hl hu hr (by omega) hhigh
  exact ⟨line_of_startHigh (hphase.trans (if_neg (by omega))), hflags⟩

end

/-- Settles O42: the wake pulse of a command without a reading. -/
theorem startPulseDrivesTheWakePulse : Obligations.StartPulseDrivesTheWakePulse := by
  intro s hl hp hf hr
  have hu := after_accepts hr hp hf rfl
  have hend := wakePulse_releases hl hu hr
  have runs (k : Nat) : Runs k s (after k s) := (runs_iff_after k hl).mpr rfl
  refine ⟨fun k hk hlow => ?_, fun k hlow hhigh => ?_, ⟨_, runs _, hend, ?_⟩⟩
  · obtain ⟨⟨hoe, hout⟩, hdone, -⟩ := wakePulse_ports_low hl hu hr hk hlow
    exact ⟨_, runs k, hoe, hout, hdone⟩
  · obtain ⟨⟨hoe, hout⟩, hdone, -⟩ := wakePulse_ports_high hl hu hr hlow hhigh
    exact ⟨_, runs k, hoe, hout, hdone⟩
  · exact lineOe_of_idle (congrArg Dec.phase hend)

/-- Settles O43: the wake pulse of a command that goes on to read a frame. -/
theorem acquireReadsRightAfterTheWakePulse : Obligations.AcquireReadsRightAfterTheWakePulse := by
  intro s hl hp hf hr
  have hu := after_accepts hr hp hf rfl
  have hend := wakePulse_releases hl hu hr
  have runs (k : Nat) : Runs k s (after k s) := (runs_iff_after k hl).mpr rfl
  refine ⟨fun k hk hlow => ?_, fun k hlow hhigh => ?_, ⟨_, runs _, ?_, hend⟩⟩
  · obtain ⟨⟨hoe, hout⟩, -, hevt⟩ := wakePulse_ports_low hl hu hr hk hlow
    exact ⟨_, runs k, hoe, hout, hevt⟩
  · obtain ⟨⟨hoe, hout⟩, -, hevt⟩ := wakePulse_ports_high hl hu hr hlow hhigh
    exact ⟨_, runs k, hoe, hout, hevt⟩
  · exact lineOe_of_awaited (lv := true) (hend ▸ rfl)

/-! ### One pulse of the line (40_decoder_commands.md R110) -/

/-- A line that stays at the level waited out, within the timeout, is counted. -/
theorem counted_of_level {s : State} {lv : Bool} {n : Nat} (hl : s.cfg.Legal)
    (hlv : awaitedLevel s.dec.phase = some lv) (hc : s.dec.cnt.toNat + n ≤ s.cfg.timeoutTicks)
    (hr : NoReset s n) (hline : ∀ j < n, (inputsAt s j).lineIn = lv) :
    Counted n s.dec (after n s).dec := by
  refine counted_after (phase_ne_idle_of_awaited hlv) hr fun j hj d hd => ?_
  have hcnt : d.cnt.toNat = s.dec.cnt.toNat + j := hd.cnt_toNat_add (by omega)
  rw [hline j hj]
  exact decStep_counts (hd.phase_eq ▸ hlv) (by omega)

/-- Where the `n` samples of a level are followed by another sample, the decoder steps from a count
raised by `n`. -/
theorem after_level {s : State} {lv : Bool} {n : Nat} (hl : s.cfg.Legal)
    (hlv : awaitedLevel s.dec.phase = some lv) (hc : s.dec.cnt.toNat + n ≤ s.cfg.timeoutTicks)
    (hr : NoReset s (n + 1)) (hline : ∀ j < n, (inputsAt s j).lineIn = lv) :
    ∃ d, Counted n s.dec d ∧ d.cnt.toNat = s.dec.cnt.toNat + n ∧
      (after (n + 1) s).dec = decStep s.cfg (inputsAt s n).lineIn d := by
  have hd := counted_of_level hl hlv hc (fun j hj => hr j (by omega)) hline
  refine ⟨_, hd, hd.cnt_toNat_add (by omega), after_succ_dec (hr n (by omega)) ?_⟩
  exact hd.phase_eq.trans_ne (phase_ne_idle_of_awaited hlv)

/-- The code of a wait's error, by the phase (30_encoding.md R82). -/
theorem errCode_waitError (q : Phase) :
    errCode (waitError q) = if q = .bitLow then 2 else if q = .bitHigh then 3 else 1 := by
  cases q <;> rfl

/-- Settles O44: the level is counted up to the timeout, and one sample more raises the error. -/
theorem stuckLineRaisesTheWaitsError : Obligations.StuckLineRaisesTheWaitsError := by
  intro s lv hl hlv hc hr hline
  have runs (k : Nat) : Runs k s (after k s) := (runs_iff_after k hl).mpr rfl
  refine ⟨fun k hk => ⟨_, runs k, ?_⟩, _, runs _, ?_⟩
  · have hd : Counted k s.dec (after k s).dec := counted_of_level hl hlv (by omega)
      (fun j hj => hr j (by omega)) (fun j hj => hline j (by omega))
    exact ⟨hd.phase_eq, hd.cnt_toNat_add (by omega)⟩
  · obtain ⟨n, hn⟩ : ∃ n, s.cfg.timeoutTicks = s.dec.cnt.toNat + n := Nat.exists_eq_add_of_le hc
    have hticks : s.cfg.timeoutTicks + 1 - s.dec.cnt.toNat = n + 1 := by omega
    rw [hticks] at hr hline ⊢
    obtain ⟨d, hd, hcnt, hlast⟩ :=
      after_level hl hlv (by omega) hr fun j hj => hline j (by omega)
    rw [hlast, hline n (by omega), decStep_timesOut (hd.phase_eq ▸ hlv) (by omega), hd.phase_eq]
    exact ⟨rfl, rfl, rfl, rfl, errCode_waitError _⟩

/-- Settles O45: the pulse's samples are counted, and its end shifts the bit in. -/
theorem highPulseLengthIsTheBit : Obligations.HighPulseLengthIsTheBit := by
  intro s n hl hp hbit hc hr hline hlast
  have hlv : awaitedLevel s.dec.phase = some true := hp ▸ rfl
  obtain ⟨d, hd, hcnt, hdec⟩ := after_level hl hlv hc hr hline
  have hend : (after (n + 1) s).dec = bitReceived s.cfg d.cnt { d with doneEvt := false } := by
    rw [hdec, hlast, ← pulseEnd_bitHigh (hd.phase_eq.trans hp)]
    exact decStep_pulseEnd (hd.phase_eq ▸ hlv)
  have hbitcnt : d.bitcnt = s.dec.bitcnt := by rw [hd]
  have hshreg : d.shreg = s.dec.shreg := by rw [hd]
  rw [bitReceived_next (bitcnt_ne_of_lt (by rwa [hbitcnt])), hbitcnt, hshreg] at hend
  refine ⟨_, (runs_iff_after _ hl).mpr rfl, ?_⟩
  rw [hend]
  refine ⟨rfl, rfl, by bv_omega, ?_, fun k hk => shiftIn_getLsbD_succ _ _ (by omega)⟩
  rw [shiftIn_getLsbD_zero, symbolBit_eq_true_iff, hcnt]

end Sys2Proof.Machine

/-! PROOFS. The family of the rules that cross the sections of the spec, part 5: a whole
waveform, decoded. -/

namespace Sys2Proof.Machine

/-! ### A decoder that hears a list of samples -/

/-- From `d` the samples `w` lead to `d'`, one a tick, the decoder being busy in each tick. -/
def Hears (p : Params) : List Bool → Dec → Dec → Prop
  | [], d, d' => d = d'
  | line :: w, d, d' => d.phase ≠ .idle ∧ Hears p w (decStep p line d) d'

theorem hears_append {p : Params} {w w' : List Bool} {d e e' : Dec} (h : Hears p w d e)
    (h' : Hears p w' e e') : Hears p (w ++ w') d e' := by
  induction w generalizing d with
  | nil => obtain rfl : d = e := h; exact h'
  | cons line w ih =>
    obtain ⟨hp, h⟩ := h
    exact ⟨hp, ih h⟩

/-- A run whose line carries the samples ends where they lead the decoder. -/
theorem after_of_hears {s : State} {w : List Bool} {d : Dec} (h : Hears s.cfg w s.dec d)
    (hr : NoReset s w.length)
    (hline : ∀ j, j < w.length → (inputsAt s j).lineIn = w.getD j false) :
    (after w.length s).dec = d := by
  induction w generalizing s with
  | nil => exact h
  | cons line w ih =>
    obtain ⟨hp, h⟩ := h
    have hfirst : (inputsAt s 0).lineIn = line := hline 0 (Nat.succ_pos _)
    have hnext : (after 1 s).dec = decStep s.cfg line s.dec :=
      hfirst ▸ after_succ_dec (hr 0 (Nat.succ_pos _)) hp
    rw [List.length_cons, Nat.add_comm, after_add]
    refine ih (by rwa [after_cfg, hnext]) (noReset_after hr (by simp; omega)) fun j hj => ?_
    rw [inputsAt_after, Nat.add_comm]
    exact hline (j + 1) (Nat.succ_lt_succ hj)

/-- A wait counts the samples of its level. -/
theorem hears_level {p : Params} {lv : Bool} {d : Dec} (hl : p.Legal)
    (hlv : awaitedLevel d.phase = some lv) (hevt : d.doneEvt = false) (n : Nat)
    (hc : d.cnt.toNat + n ≤ p.timeoutTicks) :
    Hears p (List.replicate n lv) d { d with cnt := d.cnt + BitVec.ofNat 15 n } := by
  induction n generalizing d with
  | zero => simp [Hears]
  | succ n ih =>
    refine ⟨phase_ne_idle_of_awaited hlv, ?_⟩
    have hcnt : (d.cnt + 1).toNat = d.cnt.toNat + 1 := by bv_omega
    have hsum : d.cnt + 1 + BitVec.ofNat 15 n = d.cnt + BitVec.ofNat 15 (n + 1) := by bv_omega
    rw [decStep_counts hlv (by omega)]
    have h := ih (d := { d with cnt := d.cnt + 1, doneEvt := false }) hlv rfl (by simp only; omega)
    rw [← hsum, hevt]
    exact h

/-- A pulse of `m` samples, the rest of them still to come, is measured when the line leaves its
level (40_decoder_commands.md R110 (a)). -/
theorem hears_pulse {p : Params} {lv : Bool} {d : Dec} {n m : Nat} (hl : p.Legal)
    (hlv : awaitedLevel d.phase = some lv) (hevt : d.doneEvt = false)
    (hm : d.cnt.toNat + n = m) (hmax : m ≤ p.timeoutTicks) :
    Hears p (List.replicate n lv ++ [!lv]) d (pulseEnd p { d with cnt := BitVec.ofNat 15 m }) := by
  have hcnt : d.cnt + BitVec.ofNat 15 n = BitVec.ofNat 15 m := by bv_omega
  have hlevel := hears_level hl hlv hevt n (by omega)
  rw [hcnt] at hlevel
  exact hears_append hlevel
    ⟨phase_ne_idle_of_awaited hlv, decStep_pulseEnd (d := { d with cnt := _ }) hlv⟩

/-! ### The samples of a transaction, cut after each edge -/

/-- The rest of a pulse of `n` samples of the level `lv` once the first is heard, and the edge that
ends it. -/
def pulseRest (lv : Bool) (n : Nat) : List Bool := List.replicate (n - 1) lv ++ [!lv]

/-- The samples of one bit symbol, from the second of its separator to the edge that ends it. -/
def symbolRest (b : Nat × Nat) : List Bool := pulseRest false b.1 ++ pulseRest true b.2

/-- A level and the edge that ends it, with its first sample at the front. -/
theorem replicate_append_edge (lv : Bool) {n : Nat} (h : 1 ≤ n) :
    List.replicate n lv ++ [!lv] = lv :: pulseRest lv n := by
  obtain ⟨m, rfl⟩ := Nat.exists_eq_add_of_le' h
  simp [pulseRest, List.replicate_succ]

theorem symbolWave_append_edge {b : Nat × Nat} (h1 : 1 ≤ b.1) (h2 : 1 ≤ b.2) :
    symbolWave b ++ [false] = false :: symbolRest b := by
  have hlow := replicate_append_edge false h1
  have hhigh := replicate_append_edge true h2
  simp only [Bool.not_false, Bool.not_true] at hlow hhigh
  rw [symbolWave, List.append_assoc, hhigh, List.append_cons, hlow, symbolRest]
  rfl

theorem flatMap_symbolWave_append_edge {bits : List (Nat × Nat)}
    (h : ∀ b ∈ bits, 1 ≤ b.1 ∧ 1 ≤ b.2) :
    bits.flatMap symbolWave ++ [false] = false :: bits.flatMap symbolRest := by
  induction bits with
  | nil => rfl
  | cons b bits ih =>
    obtain ⟨⟨h1, h2⟩, hbits⟩ := List.forall_mem_cons.mp h
    rw [List.flatMap_cons, List.append_assoc, ih hbits, List.append_cons,
      symbolWave_append_edge h1 h2]
    rfl

/-- The waveform of a transaction, cut after each edge. -/
theorem frameWave_eq {idle ackl ackh : Nat} {bits : List (Nat × Nat)} (hackl : 1 ≤ ackl)
    (hackh : 1 ≤ ackh) (h : ∀ b ∈ bits, 1 ≤ b.1 ∧ 1 ≤ b.2) :
    frameWave idle ackl ackh bits =
      (List.replicate idle true ++ [false]) ++ (pulseRest false ackl ++ (pulseRest true ackh ++
        bits.flatMap symbolRest)) := by
  have hlow := replicate_append_edge false hackl
  have hhigh := replicate_append_edge true hackh
  simp only [Bool.not_false, Bool.not_true] at hlow hhigh
  calc frameWave idle ackl ackh bits
    _ = List.replicate idle true ++ (List.replicate ackl false ++ (List.replicate ackh true ++
          (bits.flatMap symbolWave ++ [false]))) := by simp [frameWave]
    _ = List.replicate idle true ++ (List.replicate ackl false ++
          ((List.replicate ackh true ++ [false]) ++ bits.flatMap symbolRest)) := by
        rw [flatMap_symbolWave_append_edge h, List.append_cons]
    _ = List.replicate idle true ++ ((List.replicate ackl false ++ [true]) ++
          (pulseRest true ackh ++ bits.flatMap symbolRest)) := by
        rw [hhigh, List.cons_append, List.append_cons]
    _ = _ := by rw [hlow, List.cons_append, List.append_cons]

/-! ### The frame of a waveform -/

/-- The frame after the bits of the symbols are shifted in (40_decoder_commands.md R115). -/
def receivedFrame (p : Params) (bits : List (Nat × Nat)) (f : Frame) : Frame :=
  bits.foldl (fun f b => shiftIn f (decide (p.bitThresholdTicks < b.2))) f

/-- It is the frame of the pulse widths. -/
theorem receivedFrame_eq_wavePayload (p : Params) (bits : List (Nat × Nat)) :
    receivedFrame p bits 0 = BitVec.ofNat 40 (wavePayload p bits) := by
  refine List.foldl_hom (f := BitVec.ofNat 40) fun acc b => ?_
  apply BitVec.eq_of_toNat_eq
  have hbit : (decide (p.bitThresholdTicks < b.2)).toNat =
      if p.bitThresholdTicks < b.2 then 1 else 0 := by
    by_cases h : p.bitThresholdTicks < b.2 <;> simp [h]
  rw [shiftIn_toNat, hbit, BitVec.toNat_ofNat, BitVec.toNat_ofNat]
  omega

/-- A decoder in the phase `q` of `READ_FRAME` that has heard the first sample of a pulse, with `k`
bits in `f`. -/
def reading (q : Phase) (k : BitVec 6) (f : Frame) : Dec :=
  { phase := q, chain := false, cnt := 1, bitcnt := k, shreg := f, valid := false, done := false,
    err := 0, doneEvt := false }

/-- Both pulses of a symbol last at least one tick and at most the timeout. -/
def SymbolWithin (p : Params) (b : Nat × Nat) : Prop :=
  1 ≤ b.1 ∧ b.1 ≤ p.timeoutTicks ∧ 1 ≤ b.2 ∧ b.2 ≤ p.timeoutTicks

section
variable {p : Params} {k : BitVec 6} {f : Frame}

/-- A whole pulse of a transaction. -/
theorem hears_pulseRest (hl : p.Legal) {q : Phase} {lv : Bool} (hlv : awaitedLevel q = some lv)
    {n : Nat} (hmin : 1 ≤ n) (hmax : n ≤ p.timeoutTicks) :
    Hears p (pulseRest lv n) (reading q k f)
      (pulseEnd p { reading q k f with cnt := BitVec.ofNat 15 n }) :=
  hears_pulse hl hlv rfl (Nat.add_sub_cancel' hmin) hmax

/-- One bit symbol: its high pulse is measured. -/
theorem hears_symbolRest (hl : p.Legal) {b : Nat × Nat} (hb : SymbolWithin p b) :
    Hears p (symbolRest b) (reading .bitLow k f)
      (bitReceived p (BitVec.ofNat 15 b.2)
        { reading .bitHigh k f with cnt := BitVec.ofNat 15 b.2 }) := by
  obtain ⟨hlmin, hlmax, hhmin, hhmax⟩ := hb
  exact hears_append (hears_pulseRest hl rfl hlmin hlmax) (hears_pulseRest hl rfl hhmin hhmax)

/-- The bit of a pulse within the timeout is the comparison of its length. -/
theorem symbolBit_ofNat (hl : p.Legal) {n : Nat} (h : n ≤ p.timeoutTicks) :
    symbolBit p (BitVec.ofNat 15 n) = decide (p.bitThresholdTicks < n) := by
  have hn : (BitVec.ofNat 15 n).toNat = n := by
    rw [BitVec.toNat_ofNat]
    omega
  rw [symbolBit, hn]

/-- The symbols of the bits still missing lead to the completion of the frame they fill up. -/
theorem hears_symbols (hl : p.Legal) {bits : List (Nat × Nat)} (hne : bits ≠ [])
    (hlen : k.toNat + bits.length = 40)
    (hb : ∀ b ∈ bits, SymbolWithin p b) (d : Dec) :
    Hears p (bits.flatMap symbolRest) (reading .bitLow k f)
      (completeFrame (receivedFrame p bits f) d) := by
  induction bits generalizing k f with
  | nil => exact absurd rfl hne
  | cons b bits ih =>
    obtain ⟨hfirst, hrest⟩ := List.forall_mem_cons.mp hb
    have hsymbol := hears_symbolRest (k := k) (f := f) hl hfirst
    obtain ⟨-, -, -, hmax⟩ := hfirst
    have hbit := symbolBit_ofNat hl hmax
    rcases bits with _ | ⟨b', bits⟩
    · have hlast : k = 39 := by
        rw [List.length_singleton] at hlen
        bv_omega
      rw [bitReceived_last hlast, hbit] at hsymbol
      exact hears_append hsymbol rfl
    · simp only [List.length_cons] at hlen
      have hnext : k ≠ 39 := by bv_omega
      have hcount : (k + 1).toNat = k.toNat + 1 := by bv_omega
      rw [bitReceived_next hnext, hbit] at hsymbol
      refine hears_append hsymbol (ih (by simp) ?_ hrest)
      show (k + 1).toNat + (bits.length + 1) = 40
      omega

end

/-- The waveform of a transaction leads `READ_FRAME` to the completion of the received frame. -/
theorem hears_frameWave {p : Params} (hl : p.Legal) {idle ackl ackh : Nat}
    {bits : List (Nat × Nat)} (hidle : idle ≤ p.timeoutTicks)
    (hackl : 1 ≤ ackl ∧ ackl ≤ p.timeoutTicks) (hackh : 1 ≤ ackh ∧ ackh ≤ p.timeoutTicks)
    (hlen : bits.length = 40)
    (hb : ∀ b ∈ bits, SymbolWithin p b) (d : Dec) :
    Hears p (frameWave idle ackl ackh bits) (accept .ackW0 false d)
      (completeFrame (receivedFrame p bits 0) d) := by
  have hpos (b : Nat × Nat) (hmem : b ∈ bits) : 1 ≤ b.1 ∧ 1 ≤ b.2 := by
    obtain ⟨hl1, -, hh1, -⟩ := hb b hmem
    exact ⟨hl1, hh1⟩
  have hne : bits ≠ [] := by rintro rfl; cases hlen
  rw [frameWave_eq hackl.1 hackh.1 hpos]
  have hW0 : Hears p (List.replicate idle true ++ [false]) (accept .ackW0 false d)
      (reading .ackW1 0 0) := hears_pulse hl rfl rfl (Nat.zero_add idle) hidle
  have hW1 : Hears p (pulseRest false ackl) (reading .ackW1 0 0) (reading .ackW2 0 0) :=
    hears_pulseRest hl rfl hackl.1 hackl.2
  have hW2 : Hears p (pulseRest true ackh) (reading .ackW2 0 0) (reading .bitLow 0 0) :=
    hears_pulseRest hl rfl hackh.1 hackh.2
  exact hears_append hW0 (hears_append hW1 (hears_append hW2
    (hears_symbols hl hne (by simpa using hlen) hb d)))

/-- Settles O46: the waveform leads to the completion of the frame of its widths, which stands or
raises the mismatch. -/
theorem readFrameDecodesTheWaveform : Obligations.ReadFrameDecodesTheWaveform := by
  intro s idle ackl ackh bits f hl hp hf hidle hacklmin hacklmax hackhmin hackhmax hlen hb hr hline
    hpayload
  have hframe : receivedFrame s.cfg bits 0 = f := by
    rw [receivedFrame_eq_wavePayload, ← hpayload, BitVec.ofNat_toNat, BitVec.setWidth_eq]
  have hu : (after 1 s).dec = accept .ackW0 false s.dec := after_accepts hr hp hf rfl
  have hhears := hears_frameWave hl hidle ⟨hacklmin, hacklmax⟩ ⟨hackhmin, hackhmax⟩ hlen hb s.dec
  rw [hframe, ← hu, ← after_cfg 1 s] at hhears
  have hend := after_of_hears hhears (noReset_after hr (by omega)) fun j hj => by
    rw [inputsAt_after, Nat.add_comm]
    exact hline j hj
  refine ⟨_, (runs_iff_after _ hl).mpr rfl, ?_⟩
  rw [Nat.add_comm, after_add, hend]
  obtain ⟨hphase, hdone, hevt⟩ := completed_completeFrame f s.dec
  refine ⟨hphase, hdone, hevt, ?_⟩
  rcases completeFrame_cases f s.dec with ⟨hok, hc⟩ | ⟨hbad, hc⟩ <;> rw [hc]
  · exact ⟨fun _ => ⟨rfl, rfl, rfl⟩, fun h => absurd (hok.symm.trans h) (by decide)⟩
  · exact ⟨fun h => absurd (hbad.symm.trans h) (by decide), fun _ => ⟨rfl, rfl, rfl⟩⟩

end Sys2Proof.Machine

/-! PROOFS. The family of the rules that cross the sections of the spec, part 6: the bounds of
completion, and the result at rest. -/

namespace Sys2Proof.Machine

/-! ### The ticks left to a decoder that reads (40_decoder_commands.md R120) -/

/-- The waits left to a read in the phase `q` with `k` bits received, the current one included:
three for the acknowledgment and two for each bit. -/
def waitsLeft (q : Phase) (k : Nat) : Nat :=
  match q with
  | .ackW0 => 83 - 2 * k
  | .ackW1 => 82 - 2 * k
  | .ackW2 => 81 - 2 * k
  | .bitLow => 80 - 2 * k
  | .bitHigh => 79 - 2 * k
  | .idle | .startLow | .startHigh => 0

/-- A decoder that waits, with at most `n` ticks left: each wait left may take `TIMEOUT_TICKS + 1`
samples, and `CNT` of the current one's are heard. -/
structure Reading (p : Params) (d : Dec) (n : Nat) : Prop where
  waits : ∃ lv, awaitedLevel d.phase = some lv
  done : d.done = false
  bitcnt_le : d.bitcnt.toNat ≤ 39
  cnt_le : d.cnt.toNat ≤ p.timeoutTicks
  budget : waitsLeft d.phase d.bitcnt.toNat * (p.timeoutTicks + 1) ≤ n + d.cnt.toNat

/-- A waiting decoder has a wait left. -/
theorem waitsLeft_pos {q : Phase} {lv : Bool} {k : Nat} (h : awaitedLevel q = some lv)
    (hk : k ≤ 39) : 1 ≤ waitsLeft q k := by
  cases q <;> cases h <;> simp only [waitsLeft] <;> omega

theorem reading_accept (p : Params) (c : Bool) (d : Dec) :
    Reading p (accept .ackW0 c d) (83 * (p.timeoutTicks + 1)) :=
  ⟨⟨true, rfl⟩, rfl, Nat.zero_le _, Nat.zero_le _, le_rfl⟩

/-- The end of a wait completes the command, or leaves one wait less with its first sample heard. -/
theorem pulseEnd_waitsLeft (p : Params) {d : Dec} {lv : Bool} (h : awaitedLevel d.phase = some lv)
    (hk : d.bitcnt.toNat ≤ 39) :
    Completed (pulseEnd p d) ∨
    (awaitedLevel (pulseEnd p d).phase = some (!lv) ∧ (pulseEnd p d).done = d.done ∧
      (pulseEnd p d).bitcnt.toNat ≤ 39 ∧ (pulseEnd p d).cnt = 1 ∧
      waitsLeft (pulseEnd p d).phase (pulseEnd p d).bitcnt.toNat + 1 =
        waitsLeft d.phase d.bitcnt.toNat) := by
  cases hp : d.phase <;> rw [hp] at h <;> cases h
  case bitHigh =>
    rw [pulseEnd_bitHigh hp]
    rcases bitReceived_cases p d.cnt { d with doneEvt := false } with ⟨-, he⟩ | ⟨hne, he⟩ <;>
      rw [he]
    · exact .inl (completed_completeFrame _ _)
    · have hne' : d.bitcnt ≠ 39 := hne
      have hcount : (d.bitcnt + 1).toNat = d.bitcnt.toNat + 1 := by bv_omega
      have hlt : d.bitcnt.toNat < 39 := by bv_omega
      exact .inr ⟨rfl, rfl, by simp only [hcount]; omega, rfl,
        by simp only [waitsLeft, hcount]; omega⟩
  all_goals
    right
    simp [pulseEnd, hp, waitsLeft, awaitedLevel, hk]
    omega

/-- A tick of a decoder that reads completes the command, or leaves it a tick less. -/
theorem decStep_of_reading {p : Params} {d : Dec} {n : Nat} (hl : p.Legal)
    (h : Reading p d (n + 1)) (line : Bool) :
    Completed (decStep p line d) ∨ Reading p (decStep p line d) n := by
  obtain ⟨⟨lv, hlv⟩, hdone, hk, hc, hbudget⟩ := h
  rcases decStep_cases_of_awaited p line hlv with ⟨-, he⟩ | ⟨-, -, he⟩ | ⟨-, hlt, he⟩ <;> rw [he]
  · refine (pulseEnd_waitsLeft p hlv hk).imp_right ?_
    rintro ⟨hlv', hdone', hk', hone, hleft⟩
    have hcnt : (pulseEnd p d).cnt.toNat = 1 := by rw [hone]; rfl
    rw [← hleft, Nat.add_mul] at hbudget
    exact ⟨⟨_, hlv'⟩, hdone'.trans hdone, hk', by omega, by omega⟩
  · exact .inl (completed_raiseError _ d)
  · have hcnt : (d.cnt + 1).toNat = d.cnt.toNat + 1 := by bv_omega
    exact .inr ⟨⟨lv, hlv⟩, hdone, hk, by simp only [hcnt]; omega, by simp only [hcnt]; omega⟩

/-- A decoder that reads has a tick left. -/
theorem not_reading_zero {p : Params} {d : Dec} : ¬ Reading p d 0 := by
  rintro ⟨⟨lv, hlv⟩, -, hk, hc, hbudget⟩
  have hpos := waitsLeft_pos hlv hk
  have hmul := Nat.mul_le_mul_right (p.timeoutTicks + 1) hpos
  omega

/-! ### Completion within the bounds (40_decoder_commands.md R120) -/

/-- A decoder whose command is not over. -/
def Unfinished (d : Dec) : Prop := d.phase ≠ .idle ∧ d.done = false

theorem Reading.unfinished {p : Params} {d : Dec} {n : Nat} (h : Reading p d n) : Unfinished d := by
  obtain ⟨lv, hlv⟩ := h.waits
  exact ⟨phase_ne_idle_of_awaited hlv, h.done⟩

/-- A read completes within the ticks left to it. -/
theorem completes_of_reading {n : Nat} {s : State} (hl : s.cfg.Legal) (h : Reading s.cfg s.dec n)
    (hr : NoReset s n) :
    ∃ k, 1 ≤ k ∧ k ≤ n ∧ Completed (after k s).dec ∧ ∀ j, j < k → Unfinished (after j s).dec := by
  induction n generalizing s with
  | zero => exact absurd h not_reading_zero
  | succ n ih =>
    have hstep : (after 1 s).dec = decStep s.cfg (inputsAt s 0).lineIn s.dec :=
      after_succ_dec (hr 0 (Nat.succ_pos n)) h.unfinished.1
    rcases decStep_of_reading hl h (inputsAt s 0).lineIn with hdone | hread
    · refine ⟨1, le_rfl, by omega, hstep ▸ hdone, fun j hj => ?_⟩
      obtain rfl : j = 0 := by omega
      exact h.unfinished
    · obtain ⟨k, hk, hkn, hend, hbusy⟩ := ih (s := after 1 s) (by rwa [after_cfg])
        (by rwa [after_cfg, hstep]) (noReset_after hr (by omega))
      rw [← after_add] at hend
      refine ⟨1 + k, by omega, by omega, hend, fun j hj => ?_⟩
      rcases j with _ | j
      · exact h.unfinished
      · rw [Nat.add_comm, after_add]
        exact hbusy j (by omega)

/-- A command that is not over for `m` ticks and then reads completes within the ticks left. -/
theorem completes_after {s : State} {m n : Nat} (hl : s.cfg.Legal) (hr : NoReset s (m + n))
    (hbefore : ∀ j, 1 ≤ j → j < m → Unfinished (after j s).dec)
    (hread : Reading s.cfg (after m s).dec n) :
    ∃ k, 1 ≤ k ∧ k ≤ m + n ∧ Completed (after k s).dec ∧
      ∀ j, 1 ≤ j → j < k → Unfinished (after j s).dec := by
  obtain ⟨k, hk, hkn, hend, hbusy⟩ := completes_of_reading (s := after m s) (n := n)
    (by rwa [after_cfg]) (by rwa [after_cfg]) (noReset_after hr le_rfl)
  rw [← after_add] at hend
  refine ⟨m + k, by omega, by omega, hend, fun j hj hjk => ?_⟩
  rcases Nat.lt_or_ge j m with hjm | hjm
  · exact hbefore j hj hjm
  · obtain ⟨i, rfl⟩ := Nat.exists_eq_add_of_le hjm
    rw [after_add]
    exact hbusy i (by omega)

/-- A command is not over while its wake pulse is driven. -/
theorem wakePulse_unfinished {s : State} {c : Bool} (hl : s.cfg.Legal)
    (hu : (after 1 s).dec = accept .startLow c s.dec)
    (hr : NoReset s (s.cfg.startLowTicks + s.cfg.startHighTicks + 1)) {k : Nat} (hk : 1 ≤ k)
    (hk' : k < s.cfg.startLowTicks + s.cfg.startHighTicks + 1) : Unfinished (after k s).dec := by
  obtain ⟨hphase, hdone, -⟩ := wakePulse_drives hl hu hr hk (by omega)
  refine ⟨?_, hdone⟩
  rw [hphase]
  split <;> decide

/-- The completion of each decoder command, as a state of the decoder. -/
theorem command_completes {s : State} {i : Instr} (hl : s.cfg.Legal) (hp : s.dec.phase = .idle)
    (hf : decodeAccess (inputs s).host = some i) (hc : isDecoderCommand (some i) = true)
    (hr : NoReset s (completionBound s.cfg i)) :
    ∃ k, 1 ≤ k ∧ k ≤ completionBound s.cfg i ∧
      (i = .startPulse → k = completionBound s.cfg i) ∧ Completed (after k s).dec ∧
      ∀ j, 1 ≤ j → j < k → Unfinished (after j s).dec := by
  cases i with
  | nop => cases hc
  | btnAck => cases hc
  | startPulse =>
    have hu := after_accepts hr hp hf hc
    refine ⟨_, ?_, le_rfl, fun _ => rfl, ?_, fun j => wakePulse_unfinished hl hu hr⟩
    · exact Nat.le_add_left 1 _
    · rw [completionBound, wakePulse_releases hl hu hr]
      exact completed_completePulse _
  | readFrame =>
    have hu := after_accepts (n := 83 * (s.cfg.timeoutTicks + 1)) (by rwa [Nat.add_comm]) hp hf hc
    obtain ⟨k, hk, hkn, hend⟩ := completes_after (m := 1) hl hr (fun j hj hj1 => by omega)
      (hu ▸ reading_accept s.cfg _ _)
    exact ⟨k, hk, hkn, nofun, hend⟩
  | acquire =>
    have hrw : NoReset s (s.cfg.startLowTicks + s.cfg.startHighTicks + 1) :=
      fun j hj => hr j (by simp only [completionBound]; omega)
    have hu : (after 1 s).dec = accept .startLow true s.dec := after_accepts hrw hp hf hc
    have hread : Reading s.cfg (after (s.cfg.startLowTicks + s.cfg.startHighTicks + 1) s).dec
        (83 * (s.cfg.timeoutTicks + 1)) := by
      rw [wakePulse_releases hl hu hrw]
      exact reading_accept s.cfg true s.dec
    obtain ⟨k, hk, hkn, hend⟩ :=
      completes_after hl hr (fun j => wakePulse_unfinished hl hu hrw) hread
    exact ⟨k, hk, hkn, nofun, hend⟩

/-- Settles O47: the run gets to where the command completes. -/
theorem everyDecoderCommandCompletes : Obligations.EveryDecoderCommandCompletes := by
  intro s i hl hp hf hc hr
  have runs (k : Nat) : Runs k s (after k s) := (runs_iff_after k hl).mpr rfl
  obtain ⟨k, hk, hbound, hexact, hend, hbusy⟩ := command_completes hl hp hf hc hr
  exact ⟨k, hk, hbound, hexact, ⟨_, runs k, hend⟩, fun j hj hjk => ⟨_, runs j, hbusy j hj hjk⟩⟩

/-! ### The result at rest (20_memory.md R57) -/

/-- The result registers show the frame and `VALID` alone. -/
theorem results_congr {s t : State} (hcfg : t.cfg = s.cfg) (hshreg : t.dec.shreg = s.dec.shreg)
    (hvalid : t.dec.valid = s.dec.valid) :
    regValue t 2#3 = regValue s 2#3 ∧ regValue t 3#3 = regValue s 3#3 ∧
      regValue t 4#3 = regValue s 4#3 ∧ regValue t 5#3 = regValue s 5#3 := by
  simp only [regValue_data, regValue_chk, regValue_hum, regValue_temp, hcfg, hshreg, hvalid,
    and_self]

/-- A run at rest with no decoder command changes `DONE_EVT` alone in the decoder. -/
theorem runs_at_rest {k : Nat} {s t : State} (hp : s.dec.phase = .idle) (hr : NoReset s k)
    (hn : NoDecoderCommand s k) (h : Runs k s t) :
    t.dec = { s.dec with doneEvt := t.dec.doneEvt } := by
  induction k generalizing s with
  | zero => rw [(runs_zero s t).mp h]
  | succ k ih =>
    have htick : tickDec s = { s.dec with doneEvt := false } :=
      tickDec_idle (hr 0 (Nat.succ_pos k)) hp (hn 0 (Nat.succ_pos k))
    have hrest := (runs_succ_of_legal (legal_of_runs h)).mp h
    rw [htick] at hrest
    refine ih (s := endTick s { s.dec with doneEvt := false } (tickDeb s)) hp (fun j hj => ?_)
      (fun j hj => ?_) hrest
    · rw [inputsAt_endTick]
      exact hr (j + 1) (by omega)
    · rw [inputsAt_endTick]
      exact hn (j + 1) (by omega)

/-- Settles O48: at rest the decoder's tick changes nothing that a result shows. -/
theorem resultStaysUntilTheNextCommand : Obligations.ResultStaysUntilTheNextCommand := by
  intro k s t hp hr hn hrun
  have hdec := runs_at_rest hp hr hn hrun
  obtain ⟨hcfg, -⟩ := runs_frame k s t hrun
  have hshreg : t.dec.shreg = s.dec.shreg := by rw [hdec]
  have hvalid : t.dec.valid = s.dec.valid := by rw [hdec]
  have hdone : t.dec.done = s.dec.done := by rw [hdec]
  have herr : t.dec.err = s.dec.err := by rw [hdec]
  have hphase : t.dec.phase = s.dec.phase := by rw [hdec]
  exact ⟨hphase.trans hp, hshreg, hvalid, hdone, herr, results_congr hcfg hshreg hvalid⟩

end Sys2Proof.Machine

/-! PROOFS. The family of the rules that cross the sections of the spec, part 7: the two sub-blocks
apart, and the debounce window. -/

namespace Sys2Proof.Machine

/-! ### Two runs side by side (10_state.md R20) -/

/-- If ticks with inputs related by `I` keep a relation `R` of two states, then runs do. -/
theorem runs_related {R : State → State → Prop} {I : Inputs → Inputs → Prop}
    (htick : ∀ s s', R s s' → I (inputs s) (inputs s') →
      R (endTick s (tickDec s) (tickDeb s)) (endTick s' (tickDec s') (tickDeb s')))
    {k : Nat} {s s' t t' : State} (h : R s s')
    (hin : ∀ j, j < k → I (inputsAt s j) (inputsAt s' j)) (ht : Runs k s t) (ht' : Runs k s' t') :
    R t t' := by
  induction k generalizing s s' with
  | zero => rwa [← (runs_zero s t).mp ht, ← (runs_zero s' t').mp ht']
  | succ k ih =>
    have hrest := (runs_succ_of_legal (legal_of_runs ht)).mp ht
    have hrest' := (runs_succ_of_legal (legal_of_runs ht')).mp ht'
    refine ih (htick s s' h (hin 0 (Nat.succ_pos k))) (fun j hj => ?_) hrest hrest'
    rw [inputsAt_endTick, inputsAt_endTick]
    exact hin (j + 1) (Nat.succ_lt_succ hj)

/-- The decoder's tick depends on the parameters, the decoder, `rst`, `line_in` and the access
alone. -/
theorem tickDec_congr {s s' : State} (hcfg : s'.cfg = s.cfg) (hdec : s'.dec = s.dec)
    (hrst : (inputs s').rst = (inputs s).rst) (hline : (inputs s').lineIn = (inputs s).lineIn)
    (hhost : (inputs s').host = (inputs s).host) : tickDec s' = tickDec s := by
  simp only [tickDec, fetchCommand, decQuiet, decCommand, hcfg, hdec, hrst, hline, hhost]

/-- Settles O50: each tick leaves the two runs with the same decoder. -/
theorem decoderIgnoresTheButton : Obligations.DecoderIgnoresTheButton := by
  intro k s s' t t' hcfg hdec hin ht ht'
  refine And.right (runs_related (R := fun s s' => s'.cfg = s.cfg ∧ s'.dec = s.dec)
    (I := fun i i' => i'.rst = i.rst ∧ i'.lineIn = i.lineIn ∧ i'.host = i.host)
    (fun s s' h hi => ?_) ⟨hcfg, hdec⟩ hin ht ht')
  obtain ⟨hcfg, hdec⟩ := h
  obtain ⟨hrst, hline, hhost⟩ := hi
  exact ⟨hcfg, tickDec_congr hcfg hdec hrst hline hhost⟩

/-- The button controller's tick depends on the parameters, the button controller, `rst`, `btn_in`
and whether the command is `BTN_ACK` alone. -/
theorem tickDeb_congr {s s' : State} (hcfg : s'.cfg = s.cfg) (hdeb : s'.deb = s.deb)
    (hrst : (inputs s').rst = (inputs s).rst) (hbtn : (inputs s').btnIn = (inputs s).btnIn)
    (hack : fetchCommand s' = some .btnAck ↔ fetchCommand s = some .btnAck) :
    tickDeb s' = tickDeb s := by
  simp only [tickDeb, hcfg, hdeb, hrst, hbtn, hack]

/-- Settles O51: each tick leaves the two runs with the same button controller. -/
theorem buttonIgnoresTheDecoder : Obligations.ButtonIgnoresTheDecoder := by
  intro k s s' t t' hcfg hdeb hin ht ht'
  refine And.right (runs_related (R := fun s s' => s'.cfg = s.cfg ∧ s'.deb = s.deb)
    (I := fun i i' => i'.rst = i.rst ∧ i'.btnIn = i.btnIn ∧
      (decodeAccess i'.host = some .btnAck ↔ decodeAccess i.host = some .btnAck))
    (fun s s' h hi => ?_) ⟨hcfg, hdeb⟩ hin ht ht')
  obtain ⟨hcfg, hdeb⟩ := h
  obtain ⟨hrst, hbtn, hack⟩ := hi
  exact ⟨hcfg, tickDeb_congr hcfg hdeb hrst hbtn hack⟩

/-! ### The debounce window (42_button_controller.md R168) -/

/-- An event shows that the window begins: the timer is loaded. -/
theorem window_begins {s : State} (hl : s.cfg.Legal) (h : (tickDeb s).actEvt = true) :
    (tickDeb s).state = .suppressed ∧ (tickDeb s).cnt.toNat = s.cfg.debounceTicks ∧
      (tickDeb s).pending = true := by
  obtain ⟨-, hloads, -⟩ := activationIsAFallingEdgeWhileArmed s _ (step_eq_endTick hl)
  exact hloads h

/-- A suppressed input whose timer stands at `n` stays suppressed while the timer counts down. -/
theorem suppressed_after {u : State} {n k : Nat} (hs : u.deb.state = .suppressed)
    (hn : u.deb.cnt.toNat = n) (hk : k < n) (hr : NoReset u k) :
    (after k u).deb.state = .suppressed ∧ (after k u).deb.cnt.toNat = n - k := by
  induction k with
  | zero => exact ⟨hs, hn⟩
  | succ k ih =>
    obtain ⟨hsk, hck⟩ := ih (by omega) fun j hj => hr j (by omega)
    have hrk : (inputs (after k u)).rst = false := inputs_after k u ▸ hr k (by omega)
    show (tickDeb (after k u)).state = _ ∧ (tickDeb (after k u)).cnt.toNat = _
    rw [tickDeb_of_no_reset hrk, debStep_counts hsk (by omega)]
    exact ⟨hsk, by bv_omega⟩

/-- The timer's last tick arms the input. -/
theorem armed_after {u : State} {n : Nat} (hs : u.deb.state = .suppressed)
    (hn : u.deb.cnt.toNat = n) (hpos : 1 ≤ n) (hr : NoReset u n) :
    (after n u).deb.state = .armed ∧ (after n u).deb.cnt = 0 := by
  obtain ⟨m, rfl⟩ := Nat.exists_eq_add_of_le' hpos
  obtain ⟨hsm, hcm⟩ := suppressed_after hs hn (Nat.lt_succ_self m) fun j hj => hr j (by omega)
  have hrm : (inputs (after m u)).rst = false := inputs_after m u ▸ hr m (by omega)
  show (tickDeb (after m u)).state = _ ∧ (tickDeb (after m u)).cnt = _
  rw [tickDeb_of_no_reset hrm, debStep_expires hsm (by omega)]
  exact ⟨rfl, rfl⟩

/-- No tick of the window emits an event, the one that arms the input included. -/
theorem no_event_after {u : State} {n k : Nat} (hs : u.deb.state = .suppressed)
    (hn : u.deb.cnt.toNat = n) (hk : 1 ≤ k) (hkn : k ≤ n) (hr : NoReset u k) :
    (after k u).deb.actEvt = false := by
  obtain ⟨m, rfl⟩ := Nat.exists_eq_add_of_le' hk
  obtain ⟨hsm, -⟩ := suppressed_after hs hn (k := m) (by omega) fun j hj => hr j (by omega)
  have hrm : (inputs (after m u)).rst = false := inputs_after m u ▸ hr m (by omega)
  show (tickDeb (after m u)).actEvt = false
  rw [tickDeb_of_no_reset hrm, debStep_actEvt_of_suppressed hsm]

/-- Settles O52: the edge begins the window, and the timer counts it down and ends it. -/
theorem debounceWindowTickByTick : Obligations.DebounceWindowTickByTick := by
  intro s hl hs hprev hbtn hr
  have runs (k : Nat) : Runs k s (after k s) := (runs_iff_after k hl).mpr rfl
  have ⟨_, _, _, _, hmin, _⟩ := hl
  have hevt : (after 1 s).deb.actEvt = true := by
    obtain ⟨hiff, -⟩ := activationIsAFallingEdgeWhileArmed s _ (step_eq_endTick hl)
    exact hiff.mpr ⟨hr 0 (Nat.succ_pos _), hs, hprev, hbtn⟩
  obtain ⟨hsupp, hload, hpend⟩ := window_begins hl hevt
  refine ⟨fun k hk hkn => ⟨_, runs k, ?_⟩, _, runs _, ?_⟩
  · obtain ⟨m, rfl⟩ := Nat.exists_eq_add_of_le hk
    rw [after_add]
    obtain ⟨hsm, hcm⟩ := suppressed_after (u := after 1 s) (k := m) hsupp hload (by omega)
      (noReset_after hr (by omega))
    refine ⟨hsm, by omega, ?_, fun h1 => ?_⟩
    · rcases m with _ | m
      · exact iff_of_true hevt rfl
      · rw [no_event_after (u := after 1 s) hsupp hload (by omega) (by omega)
          (noReset_after hr (by omega))]
        simp
    · obtain rfl : m = 0 := by omega
      exact hpend
  · rw [Nat.add_comm, after_add]
    have hru : NoReset (after 1 s) s.cfg.debounceTicks := noReset_after hr (by omega)
    obtain ⟨harmed, hcnt⟩ := armed_after (u := after 1 s) hsupp hload hmin hru
    exact ⟨harmed, hcnt, no_event_after (u := after 1 s) hsupp hload hmin le_rfl hru⟩

/-- Settles O53: the tick before the first event begins a window, in which no other event falls. -/
theorem activationsAreSpacedByTheWindow : Obligations.ActivationsAreSpacedByTheWindow := by
  intro s t u j k hj hjk hr ht hevt hu hevt'
  obtain ⟨i, rfl⟩ := Nat.exists_eq_add_of_le' hj
  obtain ⟨m, rfl⟩ := Nat.exists_eq_add_of_le hjk.le
  have hl : s.cfg.Legal := legal_of_runs ht
  obtain rfl := (runs_iff_after _ hl).mp ht
  obtain rfl := (runs_iff_after _ hl).mp hu
  obtain ⟨hsupp, hload, -⟩ := window_begins (s := after i s) (by rwa [after_cfg]) hevt
  rw [after_cfg] at hload
  rw [after_add] at hevt'
  by_contra hclose
  have hno := no_event_after (u := after (i + 1) s) (k := m) hsupp hload (by omega) (by omega)
    (noReset_after hr le_rfl)
  exact Bool.eq_false_iff.mp hno hevt'

end Sys2Proof.Machine
